-- ==== Sys2Proof/Word.lean ====
section
/-! DEFINITION. The words of CLIS, by width (`00_scope.md` R7, R10). -/

namespace Sys2Proof

/-- A 16-bit word: a sample, a range bound, a dimension, a position or `STATUS`
(`SW` and `DW` of R7). -/
abbrev Word16 := BitVec 16

/-- A 32-bit word: a command (`CW`), a response (`RW`) or `FWORD` (R7, R31). -/
abbrev Word32 := BitVec 32

/-- One channel output, the source's Output (`OW` of R7). -/
abbrev Intensity := BitVec 8

/-- The data of one pixel word, three lanes of one channel output each (R57). -/
abbrev PixelData := BitVec 24

end Sys2Proof
end

