-- ==== Sys2Proof/Syntax.lean ====
section
/-! DEFINITION. The six commands (`30_encoding.md` R71), which the host calls instructions. -/

namespace Sys2Proof

/-- A command with its operands. `r` and `c` are the plain unsigned number of the `r` field (R74);
`imm` is the immediate as it stands in the word (R73). -/
inductive Instr where
  /-- NOP (R125). -/
  | nop
  /-- SET `r`, `imm` (R126). -/
  | setReg (r : BitVec 4) (imm : Word16)
  /-- GET `r` (R127). -/
  | getReg (r : BitVec 4)
  /-- MAP `c`, `imm` (R103). -/
  | mapSample (c : BitVec 4) (imm : Word16)
  /-- BEGIN (R111). -/
  | beginFrame
  /-- PIX `imm` (R112). -/
  | pix (imm : Word16)
deriving DecidableEq, Repr

end Sys2Proof
end

