-- ==== Sys2Proof/WellFormed.lean ====
section
/-! DEFINITION. Which operands a command may have: the column "`r` must be" of `30_encoding.md` R71. -/

namespace Sys2Proof

/-- A command with operands that an encoding of it may carry (R71): SET names a writable register,
GET a readable one, MAP a channel. The other operands are any. -/
def Instr.wellFormed : Instr → Bool
  | .nop => true
  | .setReg r _ => decide (r.toNat ≤ 7)
  | .getReg r => decide (r.toNat ≤ 11)
  | .mapSample c _ => decide (c.toNat ≤ 2)
  | .beginFrame => true
  | .pix _ => true

end Sys2Proof
end

