-- ==== Sys2Proof/Decode.lean ====
section
/-! DEFINITION. The command word: its fields, the decoder, the encoder and the table of masks
(`30_encoding.md`). -/

namespace Sys2Proof

/-- The field `op`, bits 31:28 (R70). -/
def opField (w : Word32) : BitVec 4 := w.extractLsb' 28 4

/-- The field `r`, bits 27:24 (R70). -/
def rField (w : Word32) : BitVec 4 := w.extractLsb' 24 4

/-- The field `z`, bits 23:16 (R70). -/
def zField (w : Word32) : BitVec 8 := w.extractLsb' 16 8

/-- The field `imm`, bits 15:0 (R70). -/
def immField (w : Word32) : Word16 := w.extractLsb' 0 16

/-- The four ways for a word to be malformed (R78 (a) to (d)). The block does not tell them apart. -/
inductive Malformed where
  /-- R78 (a): `op` is 0x6 to 0xF. -/
  | reservedOp
  /-- R78 (b): `z` is not 0. -/
  | reservedBits
  /-- R78 (c): `r` is outside the range of the command. -/
  | operandRange
  /-- R78 (d): `imm` is not 0 in NOP, GET or BEGIN. -/
  | immediateSet
deriving DecidableEq, Repr

/-- The decoder of R76, total on all words. -/
def decode (w : Word32) : Except Malformed Instr :=
  if zField w ≠ 0 then .error .reservedBits
  else
    match (opField w).toNat with
    | 0 =>
      if rField w ≠ 0 then .error .operandRange
      else if immField w ≠ 0 then .error .immediateSet
      else .ok .nop
    | 1 => if (rField w).toNat ≤ 7 then .ok (.setReg (rField w) (immField w)) else .error .operandRange
    | 2 =>
      if 11 < (rField w).toNat then .error .operandRange
      else if immField w ≠ 0 then .error .immediateSet
      else .ok (.getReg (rField w))
    | 3 => if (rField w).toNat ≤ 2 then .ok (.mapSample (rField w) (immField w)) else .error .operandRange
    | 4 =>
      if rField w ≠ 0 then .error .operandRange
      else if immField w ≠ 0 then .error .immediateSet
      else .ok .beginFrame
    | 5 => if rField w ≠ 0 then .error .operandRange else .ok (.pix (immField w))
    | _ => .error .reservedOp

/-- A word with the given `op`, `r` and `imm` and with `z` 0: `op * 2^28 + r * 2^24 + imm` (R70). -/
def commandWord (op r : BitVec 4) (imm : Word16) : Word32 :=
  BitVec.ofNat 32 (op.toNat * 2 ^ 28 + r.toNat * 2 ^ 24 + imm.toNat)

/-- The word of a command (R71). An operand no encoding of the command may carry gives a malformed
word with that operand in it. -/
def encode : Instr → Word32
  | .nop => commandWord 0x0 0 0
  | .setReg r imm => commandWord 0x1 r imm
  | .getReg r => commandWord 0x2 r 0
  | .mapSample c imm => commandWord 0x3 c imm
  | .beginFrame => commandWord 0x4 0 0
  | .pix imm => commandWord 0x5 0 imm

/-- One row of the table of R72. -/
structure TableRow where
  /-- The bits of a word that are fixed. -/
  mask : Word32
  /-- Their values. -/
  pattern : Word32
  /-- The largest `r` of "further condition", 15 where the table has none. -/
  rMax : Nat
  /-- The number of well-formed words of the row. -/
  words : Nat
  /-- The command, from the word's operand fields. -/
  command : BitVec 4 → Word16 → Instr

/-- NOP's row of R72. -/
def rowNop : TableRow := ⟨0xFFFFFFFF, 0x00000000, 15, 1, fun _ _ => .nop⟩
/-- SET's row of R72. -/
def rowSet : TableRow := ⟨0xF8FF0000, 0x10000000, 15, 524288, .setReg⟩
/-- GET's row of R72. -/
def rowGet : TableRow := ⟨0xF0FFFFFF, 0x20000000, 11, 12, fun r _ => .getReg r⟩
/-- MAP's row of R72. -/
def rowMap : TableRow := ⟨0xF0FF0000, 0x30000000, 2, 196608, .mapSample⟩
/-- BEGIN's row of R72. -/
def rowBegin : TableRow := ⟨0xFFFFFFFF, 0x40000000, 15, 1, fun _ _ => .beginFrame⟩
/-- PIX's row of R72. -/
def rowPix : TableRow := ⟨0xFFFF0000, 0x50000000, 15, 65536, fun _ imm => .pix imm⟩

/-- The table of R72, one row per command. -/
def opcodeTable : List TableRow := [rowNop, rowSet, rowGet, rowMap, rowBegin, rowPix]

/-- A word that has a row's fixed bits and meets its further condition (R72). -/
def TableRow.admits (row : TableRow) (w : Word32) : Bool :=
  (w &&& row.mask == row.pattern) && decide ((rField w).toNat ≤ row.rMax)

/-- A decoder written from the table alone (R77). -/
def decodeByTable (w : Word32) : Option Instr :=
  (opcodeTable.find? (·.admits w)).map fun row => row.command (rField w) (immField w)

/-- What the decoder reads from an instruction of `nbits` bits whose bits are `w`. A command word is
presented whole, as 32 parallel bits (R58), so there is no byte order; bits from `nbits` up are 0. -/
def decodeTableWord (nbits w : Nat) : Option Instr :=
  (decode (BitVec.ofNat 32 (w % 2 ^ nbits))).toOption

end Sys2Proof
end

