-- ==== Sys2Proof/Machine/Flags.lean ====
section
/-! DEFINITION. The fields of `STATUS`, which are the block's only flags (`10_state.md` R28), the
phase read off them (R29), and the three ways the hardware writes them. -/

namespace Sys2Proof.Machine

/-- The causes of a fault (`60_exceptions.md` R135). -/
inductive Cause where
  /-- The word is malformed. -/
  | illegal
  /-- A command out of phase. -/
  | seq
  /-- BEGIN with a zero dimension. -/
  | dim
  /-- BEGIN with a low bound above its high bound. -/
  | range
deriving DecidableEq, Repr

/-- The code a cause is recorded under (R28, R135). -/
def causeCode : Cause → BitVec 4
  | .illegal => 1
  | .seq => 2
  | .dim => 3
  | .range => 4

/-- `BUSY`, bit 0 (R28). -/
def statusBusy (st : Word16) : Bool := st.getLsbD 0

/-- `DONE`, bit 1 (R28). -/
def statusDone (st : Word16) : Bool := st.getLsbD 1

/-- `FAULT`, bit 2 (R28). -/
def statusFault (st : Word16) : Bool := st.getLsbD 2

/-- `CAUSE`, bits 7:4 (R28). -/
def statusCause (st : Word16) : BitVec 4 := st.extractLsb' 4 4

/-- The reserved bits of `STATUS`, 3 and 15:8, in place (R28). -/
def statusReserved (st : Word16) : Word16 := st &&& 0xFF08#16

/-- `BUSY <- 1; DONE <- 0`, as BEGIN does (`41_frame.md` R111). -/
def statusOpenFrame (st : Word16) : Word16 := (st &&& 0xFFFC#16) ||| 0x0001#16

/-- `BUSY <- 0; DONE <- 1`, as the last PIX of a frame does (R112). -/
def statusCloseFrame (st : Word16) : Word16 := (st &&& 0xFFFC#16) ||| 0x0002#16

/-- `FAULT <- 1; CAUSE <- k`, as fault entry does (R140). -/
def statusTakeFault (k : Cause) (st : Word16) : Word16 :=
  (st &&& 0xFF0B#16) ||| 0x0004#16 ||| ((causeCode k).zeroExtend 16 <<< 4)

/-- The phase of the block (R29). -/
inductive Phase where
  | idle
  | busy
  | faulted
deriving DecidableEq, Repr

/-- The phase, read off `STATUS` (R29). -/
def statusPhase (st : Word16) : Phase :=
  if statusFault st then .faulted else if statusBusy st then .busy else .idle

end Sys2Proof.Machine
end

