-- ==== Sys2Proof/Config.lean ====
section
/-! DEFINITION. The fixed parameters of the hardware (`00_scope.md` R7). No point of the spec is left
open (`92_eei_decisions.md`), so there is no free value here; `LANES` and `LATENCY` are read by no
rule (R8) and have no constant. -/

namespace Sys2Proof.Config

/-- `SW`: width in bits of a sample and of a range bound (R7). -/
abbrev sw : Nat := 16

/-- `OW`: width in bits of one channel output (R7). -/
abbrev ow : Nat := 8

/-- `OMAX`: the largest channel output, the clamp-high value (R7). -/
abbrev omax : Nat := 255

/-- `NCH`: number of output channels and of ranges (R7). -/
abbrev nch : Nat := 3

/-- `PW`: width of the product `255 * d` (R7, R96). -/
abbrev pw : Nat := 24

/-- `CW`: width of a command word (R7). -/
abbrev cw : Nat := 32

/-- `RW`: width of a response word (R7). -/
abbrev rw : Nat := 32

/-- `DW`: width of the `WIDTH`, `HEIGHT`, `XPOS` and `YPOS` registers (R7). -/
abbrev dw : Nat := 16

end Sys2Proof.Config
end

