-- ==== Sys2Proof/Machine/State.lean ====
section
/-! DEFINITION. The state of CLIS: its registers, the output word waiting for a sink, the two traces,
and the other agents' part of the model (`10_state.md`, `20_memory.md`, `70_reset_and_hazards.md`). -/

namespace Sys2Proof.Machine

/-- One word of the pixel port (`20_memory.md` R51): 24 bits of data and the two marks. -/
structure Pixel where
  /-- `p_data` (R57). -/
  data : PixelData
  /-- `p_eol`: the last pixel of its row. -/
  eol : Bool
  /-- `p_eof`: the last pixel of its frame. -/
  eof : Bool
deriving DecidableEq, Repr

/-- A word offered on one of the two output ports (R51, R55). -/
inductive Output where
  /-- A word of the pixel port. -/
  | pixel (p : Pixel)
  /-- A word of the response port. -/
  | response (w : Word32)
deriving DecidableEq, Repr

/-- What an agent other than the block can do to it (`70_reset_and_hazards.md` R170). DESIGN CHOICE
(log entry 1): one action per step of the model. Safe: every order of actions is a list. -/
inductive EnvAction where
  /-- The host offers a command word (`c_valid`, `c_data`). -/
  | offer (w : Word32)
  /-- The host asserts `rst` (R160). -/
  | reset
  /-- The pixel sink drives `p_ready`. -/
  | drivePixelReady (b : Bool)
  /-- The response sink drives `r_ready`. -/
  | driveResponseReady (b : Bool)
deriving DecidableEq, Repr

/-- Reasons for the model to stop with a fault: none. CLIS's own faults (`60_exceptions.md` R135) are
recorded in `STATUS` and `FWORD` and the block goes on, so they are next states; every word has
exactly one defined behaviour in every phase (`30_encoding.md` R79). Safe (log entry 10). -/
inductive Fault where
deriving DecidableEq, Repr

/-- Reasons for the model to give an instruction no meaning. -/
inductive Refusal where
  /-- Raised by an arm of `exec` whose command has no meaning yet; no arm raises it now. Safe: the
  model stops where the hardware goes on. -/
  | notModelled (mnemonic : String)
deriving DecidableEq, Repr

/-- Everything the spec gives the machine, and what the other agents have still to do. -/
structure State where
  /-- `LO[0]`, `R[0]` (R20). -/
  lo0 : Word16
  /-- `HI[0]`, `R[1]` (R20). -/
  hi0 : Word16
  /-- `LO[1]`, `R[2]` (R20). -/
  lo1 : Word16
  /-- `HI[1]`, `R[3]` (R20). -/
  hi1 : Word16
  /-- `LO[2]`, `R[4]` (R20). -/
  lo2 : Word16
  /-- `HI[2]`, `R[5]` (R20). -/
  hi2 : Word16
  /-- `WIDTH`, `R[6]` (R24). -/
  width : Word16
  /-- `HEIGHT`, `R[7]` (R24). -/
  height : Word16
  /-- `STATUS`, `R[8]` (R28). -/
  status : Word16
  /-- `XPOS`, `R[9]` (R33). -/
  xpos : Word16
  /-- `YPOS`, `R[10]` (R33). -/
  ypos : Word16
  /-- `FWORD`, `R[11]` (R31). -/
  fword : Word32
  /-- The output word of the command in progress, offered and not yet taken by its sink (R53, R55). -/
  held : Option Output
  /-- The pixel trace, oldest first (R37). -/
  pixels : List Pixel
  /-- The response trace, oldest first (R37). -/
  responses : List Word32
  /-- The input pin `p_ready` (R51). -/
  pReady : Bool
  /-- The input pin `r_ready` (R51). -/
  rReady : Bool
  /-- The actions of the host and of the sinks still to come, in the order they happen (R170, R171). -/
  env : List EnvAction
deriving DecidableEq, Repr

/-- The machine at the reset that starts a run: every register zero and both traces empty (R40).
DESIGN CHOICE: both sinks are ready (log entry 2; unsafe for a run with no pin action) and no action
is placed yet (log entry 1; safe). -/
def State.reset : State where
  lo0 := 0
  hi0 := 0
  lo1 := 0
  hi1 := 0
  lo2 := 0
  hi2 := 0
  width := 0
  height := 0
  status := 0
  xpos := 0
  ypos := 0
  fword := 0
  held := none
  pixels := []
  responses := []
  pReady := true
  rReady := true
  env := []

end Sys2Proof.Machine
end

