-- ==== Sys2Proof/Machine/Ops.lean ====
section
/-! DEFINITION. The shared operations: the register file, taking a fault, reset (the only way out of
one), and offering an output word to its sink. -/

namespace Sys2Proof.Machine

/-- The three outcomes of a step of CLIS. -/
abbrev StepResult := Host.Outcome State Fault Refusal

/-- The outcome `r`, and where it is a next state, `f` of that state. -/
def thenDo (r : StepResult) (f : State → StepResult) : StepResult :=
  match r with
  | .next t => f t
  | .fault e => .fault e
  | .refused e => .refused e

/-- `BUSY` (`10_state.md` R28). -/
def State.busy (s : State) : Bool := statusBusy s.status

/-- `DONE` (R28). -/
def State.done (s : State) : Bool := statusDone s.status

/-- `FAULT` (R28). -/
def State.faulted (s : State) : Bool := statusFault s.status

/-- The phase (R29). -/
def State.phase (s : State) : Phase := statusPhase s.status

/-- `R[r]`, zero-extended to a response word (R26, R127); none for the reserved numbers 12 to 15. -/
def State.readReg (s : State) (r : BitVec 4) : Option Word32 :=
  match r.toNat with
  | 0 => some (s.lo0.zeroExtend 32)
  | 1 => some (s.hi0.zeroExtend 32)
  | 2 => some (s.lo1.zeroExtend 32)
  | 3 => some (s.hi1.zeroExtend 32)
  | 4 => some (s.lo2.zeroExtend 32)
  | 5 => some (s.hi2.zeroExtend 32)
  | 6 => some (s.width.zeroExtend 32)
  | 7 => some (s.height.zeroExtend 32)
  | 8 => some (s.status.zeroExtend 32)
  | 9 => some (s.xpos.zeroExtend 32)
  | 10 => some (s.ypos.zeroExtend 32)
  | 11 => some s.fword
  | _ => none

/-- `R[r] <- v` (R13); none for the numbers that SET may not name, the read-only 8 to 11 and the
reserved 12 to 15 (R26, R27). -/
def State.writeReg (s : State) (r : BitVec 4) (v : Word16) : Option State :=
  match r.toNat with
  | 0 => some { s with lo0 := v }
  | 1 => some { s with hi0 := v }
  | 2 => some { s with lo1 := v }
  | 3 => some { s with hi1 := v }
  | 4 => some { s with lo2 := v }
  | 5 => some { s with hi2 := v }
  | 6 => some { s with width := v }
  | 7 => some { s with height := v }
  | _ => none

/-- Fault entry with cause `k` at command word `w`: `FAULT`, `CAUSE` and `FWORD`, nothing else
(`60_exceptions.md` R140). -/
def State.enterFault (k : Cause) (w : Word32) (s : State) : State :=
  { s with status := statusTakeFault k s.status, fword := w }

/-- `raise Fault(k)` as the whole effect of the command `w` (R15, R140). -/
def raiseFault (k : Cause) (w : Word32) (s : State) : StepResult := .next (s.enterFault k w)

/-- In phase FAULTED a command is discarded: no effect, no output word, no fault (R141). Otherwise it
has the effect `run`. -/
def unlessFaulted (s : State) (run : StepResult) : StepResult :=
  if s.faulted then .next s else run

/-- A malformed word `w` (`30_encoding.md` R78): `ILLEGAL`, or discarded in phase FAULTED. -/
def runMalformed (w : Word32) (s : State) : StepResult := unlessFaulted s (raiseFault .illegal w s)

/-- Reset of the block (`70_reset_and_hazards.md` R160, R161): every register to its reset value, the
command in progress abandoned and its word withdrawn; the traces stay. It is the only way out of a
fault (R142). The other agents are not the block: their pins and actions stay (log entry 6). -/
def State.resetBlock (s : State) : State :=
  { State.reset with
    pixels := s.pixels
    responses := s.responses
    pReady := s.pReady
    rReady := s.rReady
    env := s.env }

/-- The frame is complete: `BUSY <- 0; DONE <- 1; XPOS <- 0; YPOS <- 0` (`41_frame.md` R112). -/
def State.closeFrame (s : State) : State :=
  { s with status := statusCloseFrame s.status, xpos := 0, ypos := 0 }

/-- `XPOS <- 0; YPOS <- YPOS + 1` (R112). -/
def State.nextRow (s : State) : State := { s with xpos := 0, ypos := s.ypos + 1 }

/-- `XPOS <- XPOS + 1` (R112). -/
def State.nextColumn (s : State) : State := { s with xpos := s.xpos + 1 }

/-- The register writes of a PIX with the marks `eol` and `eof` (R112). -/
def State.advance (eol eof : Bool) (s : State) : State :=
  if eof then s.closeFrame else if eol then s.nextRow else s.nextColumn

/-- A word leaves the pixel port: the end of the pixel trace (`00_scope.md` R14, `10_state.md` R37). -/
def State.appendPixel (p : Pixel) (s : State) : State := { s with pixels := s.pixels ++ [p] }

/-- A word leaves the response port: the end of the response trace (R14, R37). -/
def State.appendResponse (w : Word32) (s : State) : State :=
  { s with responses := s.responses ++ [w] }

/-- The transfer of an output word to its sink: the word is in the trace, and the command that made
it retires, its register writes becoming visible (`20_memory.md` R55). Only PIX has any. -/
def State.transfer : Output → State → State
  | .pixel p, s => (s.appendPixel p).advance p.eol p.eof
  | .response w, s => s.appendResponse w

/-- The `ready` pin of the port an output word is for (R51, R53). -/
def State.sinkReady (s : State) : Output → Bool
  | .pixel _ => s.pReady
  | .response _ => s.rReady

/-- The output word `o` waits for its sink; the command that made it has not retired (R55). -/
def State.hold (o : Output) (s : State) : State := { s with held := some o }

/-- No command is in progress. -/
def State.release (s : State) : State := { s with held := none }

/-- `PixOut` and `RespOut` (R14) with the handshake of R53: transferred at once where the sink is
ready, else offered until it is. -/
def State.emit (o : Output) (s : State) : State :=
  if s.sinkReady o then s.transfer o else s.hold o

/-- The word on offer, if there is one and its sink is ready, is transferred (R53, R55). -/
def State.settle (s : State) : State :=
  match s.held with
  | none => s
  | some o => if s.sinkReady o then s.release.transfer o else s

/-- The word on offer, if there is one, is taken by its sink, whatever the pin showed before, and the
command that made it retires (R55). -/
def State.retire (s : State) : State :=
  match s.held with
  | none => s
  | some o => s.release.transfer o

/-- The pin `p_ready` becomes `b`. -/
def State.withPReady (b : Bool) (s : State) : State := { s with pReady := b }

/-- The pin `r_ready` becomes `b`. -/
def State.withRReady (b : Bool) (s : State) : State := { s with rReady := b }

/-- The actions still to come become `env`. -/
def State.withEnv (env : List EnvAction) (s : State) : State := { s with env := env }

/-- `c_ready`: no command is in progress, whatever the phase (R54). -/
def State.cReady (s : State) : Bool := s.held.isNone

/-- A command word offered by the host. -/
def EnvAction.isOffer : EnvAction → Bool
  | .offer _ => true
  | _ => false

/-- The first action that can happen, and the actions left. While a command is in progress
(`waiting`), `c_ready` is 0, so an offered word stays on offer (R53, R54) and the other agents and
`rst` go first (R161; log entry 3). -/
def takeAction (waiting : Bool) : List EnvAction → Option (EnvAction × List EnvAction)
  | [] => none
  | a :: rest =>
    if waiting && a.isOffer then (takeAction waiting rest).map fun (b, left) => (b, a :: left)
    else some (a, rest)

/-- The action of the other agents that happens next, and the state with it taken; none where
nothing can happen, and the block waits (R166, R170). -/
def State.nextAction (s : State) : Option (EnvAction × State) :=
  (takeAction (!s.cReady) s.env).map fun (a, left) => (a, s.withEnv left)

end Sys2Proof.Machine
end

