-- ==== Sys2Proof/Machine/Operands.lean ====
section
/-! DEFINITION. The operand forms: how a 16-bit word is read, and the range a channel index names
(`00_scope.md` R11, R13; `30_encoding.md` R73 to R75). -/

namespace Sys2Proof.Machine

/-- `S16(w)`, the signed reading (R11). -/
def s16 (w : Word16) : Int := if w.toNat < 32768 then w.toNat else (w.toNat : Int) - 65536

/-- `U16(w)`, the unsigned reading (R11). -/
def u16 (w : Word16) : Int := w.toNat

/-- `W16(i)`, the word of the integer `i` (R11). -/
def w16 (i : Int) : Word16 := BitVec.ofNat 16 (i % 65536).toNat

/-- A channel's Range: the pair `LO[c]`, `HI[c]` (R18, R20). -/
structure ChannelRange where
  low : Word16
  high : Word16
deriving DecidableEq, Repr

/-- The range of channel `c`, `R[2*c]` and `R[2*c + 1]` (R74); none where `c` is no channel. -/
def State.channelRange (s : State) (c : BitVec 4) : Option ChannelRange :=
  match c.toNat with
  | 0 => some ⟨s.lo0, s.hi0⟩
  | 1 => some ⟨s.lo1, s.hi1⟩
  | 2 => some ⟨s.lo2, s.hi2⟩
  | _ => none

/-- `S16(LO[c]) > S16(HI[c])` (`41_frame.md` R111). -/
def ChannelRange.reversed (rg : ChannelRange) : Bool := decide (s16 rg.low > s16 rg.high)

end Sys2Proof.Machine
end

