-- ==== Sys2Proof/Machine/ConfigAccess.lean ====
section
/-! DEFINITION. The commands NOP, SET and GET (`42_config_access.md`). -/

namespace Sys2Proof.Machine

/-- NOP (R125): no effect, in all three phases. -/
def execNop (s : State) : StepResult := .next s

/-- SET `r`, `imm` (R126). The order of the tests is that of `60_exceptions.md` R139. -/
def execSet (r : BitVec 4) (imm : Word16) (s : State) : StepResult :=
  unlessFaulted s <|
    match s.writeReg r imm with
    | none => raiseFault .illegal (encode (.setReg r imm)) s
    | some t => if s.busy then raiseFault .seq (encode (.setReg r imm)) s else .next t

/-- GET `r` (R127): it executes in phase FAULTED too. -/
def execGet (r : BitVec 4) (s : State) : StepResult :=
  match s.readReg r with
  | none => runMalformed (encode (.getReg r)) s
  | some w => .next (s.emit (.response w))

end Sys2Proof.Machine
end

