-- ==== Sys2Proof/Machine/Mapper.lean ====
section
/-! DEFINITION. The function `map`, the source's Channel Mapper (`40_mapper.md`). -/

namespace Sys2Proof.Machine

/-- `map(v, lo, hi)`, in the order of R95. `/` divides a non-negative product by a positive span
here, where floor and truncation are the same integer (R97). -/
def mapValue (v lo hi : Int) : Int :=
  if v < lo then 0
  else if v > hi then 255
  else if lo = hi then 255
  else
    let d := v - lo
    let s := hi - lo
    let p := 255 * d
    p / s

/-- `map` of a sample word through a channel's range, as the 8-bit output of that channel (R16, R103). -/
def ChannelRange.output (rg : ChannelRange) (imm : Word16) : Intensity :=
  BitVec.ofInt 8 (mapValue (s16 imm) (s16 rg.low) (s16 rg.high))

/-- The offset or span `a - b` of two words of which `b` is not above `a`: a 17-bit signed
subtraction whose result fits 16 bits unsigned (R96). -/
def distance (a b : Word16) : Word16 := (a.signExtend 17 - b.signExtend 17).setWidth 16

/-- The product `255 * d` in 24 bits, formed as `d * 256 - d` (R96). -/
def product (d : Word16) : BitVec 24 := (d.setWidth 24 <<< 8) - d.setWidth 24

/-- `map` on words of the widths of R96, with no wider intermediate. -/
def mapDatapath (v lo hi : Word16) : Intensity :=
  if v.slt lo then 0
  else if hi.slt v then 255
  else if lo == hi then 255
  else (product (distance v lo) / (distance hi lo).setWidth 24).setWidth 8

end Sys2Proof.Machine
end

