-- ==== Sys2Proof/Machine/Frame.lean ====
section
/-! DEFINITION. The frame commands BEGIN and PIX (`41_frame.md`). -/

namespace Sys2Proof.Machine

/-- Either dimension is zero (R111, fault `DIM`). -/
def State.emptyGrid (s : State) : Bool := s.width == 0 || s.height == 0

/-- Some channel has its low bound above its high bound (R111, fault `RANGE`). -/
def State.anyReversed (s : State) : Bool :=
  ChannelRange.reversed ⟨s.lo0, s.hi0⟩ || ChannelRange.reversed ⟨s.lo1, s.hi1⟩ ||
    ChannelRange.reversed ⟨s.lo2, s.hi2⟩

/-- `BUSY <- 1; DONE <- 0; XPOS <- 0; YPOS <- 0` (R111). -/
def State.openFrame (s : State) : State :=
  { s with status := statusOpenFrame s.status, xpos := 0, ypos := 0 }

/-- BEGIN (R111), its faults in the order of R139. -/
def execBegin (s : State) : StepResult :=
  unlessFaulted s <|
    if s.busy then raiseFault .seq (encode .beginFrame) s
    else if s.emptyGrid then raiseFault .dim (encode .beginFrame) s
    else if s.anyReversed then raiseFault .range (encode .beginFrame) s
    else .next s.openFrame

/-- `eol`: `U16(XPOS) == U16(WIDTH) - 1`, on integers (R112, R12). -/
def State.atRowEnd (s : State) : Bool := decide (u16 s.xpos = u16 s.width - 1)

/-- `eof`: `eol` and `U16(YPOS) == U16(HEIGHT) - 1`, on integers (R112, R12). -/
def State.atFrameEnd (s : State) : Bool := s.atRowEnd && decide (u16 s.ypos = u16 s.height - 1)

/-- The 24-bit word `{o2, o1, o0}` of a sample: the output of channel `c` in lane `c`
(R116, `20_memory.md` R57). -/
def State.pixelData (s : State) (imm : Word16) : PixelData :=
  ChannelRange.output ⟨s.lo2, s.hi2⟩ imm ++ ChannelRange.output ⟨s.lo1, s.hi1⟩ imm ++
    ChannelRange.output ⟨s.lo0, s.hi0⟩ imm

/-- The pixel word of a sample at the current position (R112). -/
def State.pixelOf (s : State) (imm : Word16) : Pixel :=
  ⟨s.pixelData imm, s.atRowEnd, s.atFrameEnd⟩

/-- PIX `imm` (R112), in phase BUSY. -/
def execPix (imm : Word16) (s : State) : StepResult :=
  unlessFaulted s <|
    if s.busy then .next (s.emit (.pixel (s.pixelOf imm)))
    else raiseFault .seq (encode (.pix imm)) s

end Sys2Proof.Machine
end

