-- ==== Sys2Proof/Machine/MapCommand.lean ====
section
/-! DEFINITION. The command MAP (`40_mapper.md` R103). -/

namespace Sys2Proof.Machine

/-- MAP `c`, `imm` (R103): `RespOut(zext_32(map(v, lo, hi)))`, in phases IDLE and BUSY. -/
def execMap (c : BitVec 4) (imm : Word16) (s : State) : StepResult :=
  unlessFaulted s <|
    match s.channelRange c with
    | none => raiseFault .illegal (encode (.mapSample c imm)) s
    | some rg => .next (s.emit (.response ((rg.output imm).zeroExtend 32)))

end Sys2Proof.Machine
end

