-- ==== Sys2Proof/Machine/Dispatch.lean ====
section
/-! DEFINITION. What each command does: one arm per constructor, one meaning per arm. -/

namespace Sys2Proof.Machine

/-- The effect of a command that the block has accepted (`20_memory.md` R54, R64). -/
def exec (i : Instr) (s : State) : Host.Outcome State Fault Refusal :=
  match i with
  | .nop => Sys2Proof.Machine.execNop s
  | .setReg r imm => Sys2Proof.Machine.execSet r imm s
  | .getReg r => Sys2Proof.Machine.execGet r s
  | .mapSample c imm => Sys2Proof.Machine.execMap c imm s
  | .beginFrame => Sys2Proof.Machine.execBegin s
  | .pix imm => Sys2Proof.Machine.execPix imm s

end Sys2Proof.Machine
end

