-- ==== Sys2Proof/Machine/Accept.lean ====
section
/-! DEFINITION. What the block does about one action of another agent (`70_reset_and_hazards.md`
R170): accept a command word, take reset, or see a sink's `ready` change. -/

namespace Sys2Proof.Machine

/-- A command word `w` is accepted: decoded from the word alone (`30_encoding.md` R76) and executed
whole (`20_memory.md` R64). -/
def acceptWord (w : Word32) (s : State) : StepResult :=
  match decode w with
  | .ok i => exec i s
  | .error _ => runMalformed w s

/-- The effect of one action. -/
def act : EnvAction → State → StepResult
  | .offer w, s => acceptWord w s
  | .reset, s => .next s.resetBlock
  | .drivePixelReady b, s => .next (s.withPReady b).settle
  | .driveResponseReady b, s => .next (s.withRReady b).settle

end Sys2Proof.Machine
end

