-- ==== Sys2Proof/Machine/Step.lean ====
section
/-! DEFINITION. One step: the next action of the other agents and what the block does about it. -/

namespace Sys2Proof.Machine

/-- One step. Where no action can happen the block waits; there is no timeout
(`70_reset_and_hazards.md` R166, R170). -/
def step (s : State) : Host.Outcome State Fault Refusal :=
  match s.nextAction with
  | none => .next s
  | some (a, t) => act a t

/-- `s` with the word `w` of an instruction of `nbits` bits as what the host offers next, and with no
command in progress, so that the next step accepts it (log entry 1). -/
def State.withFetchWord (s : State) (nbits w : Nat) : State :=
  s.release.withEnv (.offer (BitVec.ofNat 32 (w % 2 ^ nbits)) :: s.env)

end Sys2Proof.Machine
end

