-- ==== Sys2Proof/Machine/Assembler.lean ====
section
/-! DEFINITION. The assembler's spelling of commands and its pseudo-instructions (`30_encoding.md`
R81, R82). It is used in listings and nowhere in hardware. -/

namespace Sys2Proof.Machine

/-- One line of a listing, read but not yet checked. A register is its number, an immediate the
integer written. -/
inductive AsmLine where
  /-- A line with no command. -/
  | blank
  | nop
  | set (reg : Nat) (imm : Int)
  | get (reg : Nat)
  | map (c : Nat) (imm : Int)
  | begin
  | pix (imm : Int)
  | setlo (c : Nat) (imm : Int)
  | sethi (c : Nat) (imm : Int)
  | range (c : Nat) (lo hi : Int)
  | ranges (lo hi : Int)
  | dim (w h : Int)
  /-- `.word 0x........` -/
  | word (w : Nat)
deriving DecidableEq, Repr

/-- An immediate: an integer in `-32768 .. 65535`, encoded as `W16(i)` (R81). -/
def asmImm (i : Int) : Option Word16 := if -32768 ≤ i ∧ i ≤ 65535 then some (w16 i) else none

/-- `SET reg, imm` (R81). -/
def asmSet (reg : Nat) (imm : Int) : Option Word32 :=
  if reg ≤ 7 then
    (asmImm imm).map fun v => BitVec.ofNat 32 (0x10000000 + reg * 0x01000000 + v.toNat)
  else none

/-- `RANGE c, lo, hi`: `SET 2*c, lo` then `SET 2*c+1, hi` (R82). -/
def asmRange (c : Nat) (lo hi : Int) : Option (List Word32) :=
  if c ≤ 2 then do
    let a ← asmSet (2 * c) lo
    let b ← asmSet (2 * c + 1) hi
    return [a, b]
  else none

/-- The words of a line (R81, R82); none where an operand is outside its stated range. -/
def assemble : AsmLine → Option (List Word32)
  | .blank => some []
  | .nop => some [0x00000000]
  | .set reg imm => (asmSet reg imm).map fun w => [w]
  | .get reg => if reg ≤ 11 then some [BitVec.ofNat 32 (0x20000000 + reg * 0x01000000)] else none
  | .map c imm =>
    if c ≤ 2 then
      (asmImm imm).map fun v => [BitVec.ofNat 32 (0x30000000 + c * 0x01000000 + v.toNat)]
    else none
  | .begin => some [0x40000000]
  | .pix imm => (asmImm imm).map fun v => [BitVec.ofNat 32 (0x50000000 + v.toNat)]
  | .setlo c imm => if c ≤ 2 then (asmSet (2 * c) imm).map fun w => [w] else none
  | .sethi c imm => if c ≤ 2 then (asmSet (2 * c + 1) imm).map fun w => [w] else none
  | .range c lo hi => asmRange c lo hi
  | .ranges lo hi => do
    let a ← asmRange 0 lo hi
    let b ← asmRange 1 lo hi
    let d ← asmRange 2 lo hi
    return a ++ b ++ d
  | .dim w h =>
    if 0 ≤ w ∧ 0 ≤ h then do
      let a ← asmSet 6 w
      let b ← asmSet 7 h
      return [a, b]
    else none
  | .word w => if w < 2 ^ 32 then some [BitVec.ofNat 32 w] else none

/-- A decimal digit. -/
def decDigit (c : Char) : Option Nat :=
  if 48 ≤ c.toNat ∧ c.toNat ≤ 57 then some (c.toNat - 48) else none

/-- A hexadecimal digit, in either case. -/
def hexDigit (c : Char) : Option Nat :=
  if 65 ≤ c.toNat ∧ c.toNat ≤ 70 then some (c.toNat - 55)
  else if 97 ≤ c.toNat ∧ c.toNat ≤ 102 then some (c.toNat - 87)
  else decDigit c

/-- A number of one or more digits, most significant first. -/
def readDigits (base : Nat) (digit : Char → Option Nat) : List Char → Option Nat
  | [] => none
  | cs => cs.foldl (fun acc c => do return base * (← acc) + (← digit c)) (some 0)

/-- An unsigned number: decimal, or hexadecimal after `0x`. -/
def readNat : List Char → Option Nat
  | '0' :: 'x' :: cs => readDigits 16 hexDigit cs
  | cs => readDigits 10 decDigit cs

/-- An immediate as written (R81): a decimal integer with an optional minus sign, or a hexadecimal word. -/
def readImm : List Char → Option Int
  | '-' :: cs => (readDigits 10 decDigit cs).map fun n => -(n : Int)
  | cs => (readNat cs).map fun n => (n : Int)

/-- The register names of R81 with their numbers. -/
def regNames : List (String × Nat) :=
  [("LO0", 0), ("HI0", 1), ("LO1", 2), ("HI1", 3), ("LO2", 4), ("HI2", 5), ("WIDTH", 6),
    ("HEIGHT", 7), ("STATUS", 8), ("XPOS", 9), ("YPOS", 10), ("FWORD", 11)]

/-- A channel operand, a decimal digit (R81). -/
def readChannel (cs : List Char) : Option Nat := readDigits 10 decDigit cs

/-- A register operand: a name or its number (R81). -/
def parseReg (cs : List Char) : Option Nat :=
  match regNames.find? fun p => p.1.toList == cs with
  | some p => some p.2
  | none => readDigits 10 decDigit cs

/-- A line without blanks at its ends. -/
def trimBlanks (cs : List Char) : List Char :=
  ((cs.dropWhile (· == ' ')).reverse.dropWhile (· == ' ')).reverse

/-- The operands of a line, separated by commas. -/
def splitCommas (cs : List Char) : List (List Char) :=
  cs.foldr
    (fun c acc =>
      match acc with
      | [] => [[c]]
      | op :: ops => if c == ',' then [] :: op :: ops else (c :: op) :: ops)
    [[]]

/-- A mnemonic and its operands (R81, R82). -/
def readLine (mnemonic : String) : List (List Char) → Option AsmLine
  | [[]] =>
    if mnemonic == "NOP" then some .nop
    else if mnemonic == "BEGIN" then some .begin
    else none
  | [a] =>
    if mnemonic == "GET" then (parseReg a).map .get
    else if mnemonic == "PIX" then (readImm a).map .pix
    else if mnemonic == ".word" then (readNat a).map .word
    else none
  | [a, b] =>
    if mnemonic == "SET" then do return .set (← parseReg a) (← readImm b)
    else if mnemonic == "MAP" then do return .map (← readChannel a) (← readImm b)
    else if mnemonic == "SETLO" then do return .setlo (← readChannel a) (← readImm b)
    else if mnemonic == "SETHI" then do return .sethi (← readChannel a) (← readImm b)
    else if mnemonic == "RANGES" then do return .ranges (← readImm a) (← readImm b)
    else if mnemonic == "DIM" then do return .dim (← readImm a) (← readImm b)
    else none
  | [a, b, d] =>
    if mnemonic == "RANGE" then do return .range (← readChannel a) (← readImm b) (← readImm d)
    else none
  | _ => none

/-- One line of text, of which a `;` starts a comment (R81). -/
def parseLine (text : List Char) : Option AsmLine :=
  match trimBlanks (text.takeWhile (· != ';')) with
  | [] => some .blank
  | cs =>
    readLine (String.ofList (cs.takeWhile (· != ' ')))
      ((splitCommas (cs.dropWhile (· != ' '))).map trimBlanks)

/-- The words of a line of text; none where the assembler refuses it (R81). -/
def assembleText (text : List Char) : Option (List Word32) := (parseLine text).bind assemble

end Sys2Proof.Machine
end

