-- ==== Sys2Proof/Machine/Ports.lean ====
section
/-! DEFINITION. The output pins, which are not separate state (`20_memory.md` R51, R52; `10_state.md`
R30), a pixel as bytes (R57), and what is observed of a run (R37). -/

namespace Sys2Proof.Machine

/-- The block's output pins (R51). A port's word is there exactly while its `valid` is 1. -/
structure OutputPins where
  /-- `c_ready` (R54). -/
  cReady : Bool
  /-- `p_valid` and with it `p_data`, `p_eol`, `p_eof`. -/
  pixel : Option Pixel
  /-- `r_valid` and with it `r_data`. -/
  response : Option Word32
  /-- `busy` (R52). -/
  busy : Bool
  /-- `done` (R52, R145). -/
  done : Bool
  /-- `fault` (R52, R145). -/
  fault : Bool
deriving DecidableEq, Repr

/-- The pixel word on offer (R53). -/
def State.pixelOffer (s : State) : Option Pixel :=
  match s.held with
  | some (.pixel p) => some p
  | _ => none

/-- The response word on offer (R53). -/
def State.responseOffer (s : State) : Option Word32 :=
  match s.held with
  | some (.response w) => some w
  | _ => none

/-- The output pins of a state. -/
def State.outputPins (s : State) : OutputPins where
  cReady := s.cReady
  pixel := s.pixelOffer
  response := s.responseOffer
  busy := s.busy
  done := s.done
  fault := s.faulted

/-- The command port as the host drives it, `c_valid` and `c_data` (R51): the word at the head of the
actions to come, if it is one. -/
def State.commandOffer (s : State) : Option Word32 :=
  match s.env with
  | .offer w :: _ => some w
  | _ => none

/-- Lane `c` of a pixel word, bits `8*c + 7 .. 8*c` (R57). -/
def lane (data : PixelData) (c : Nat) : Intensity := data.extractLsb' (8 * c) 8

/-- A pixel word as bytes, lane 0 first (R57). -/
def Pixel.bytes (p : Pixel) : List Intensity := [lane p.data 0, lane p.data 1, lane p.data 2]

/-- The observation of a run: registers 0 to 11 and the two traces (R37, R171). -/
structure Observation where
  registers : List Word32
  pixels : List Pixel
  responses : List Word32
deriving DecidableEq, Repr

/-- What is observed of a state at the end of a run (R37, R171). -/
def State.observe (s : State) : Observation where
  registers := (List.range 12).filterMap fun n => s.readReg (BitVec.ofNat 4 n)
  pixels := s.pixels
  responses := s.responses

end Sys2Proof.Machine
end

