-- ==== Sys2Proof/Machine/Run.lean ====
section
/-! DEFINITION. A run, its result, the frames it opened and when it has converted them
(`70_reset_and_hazards.md` R171; `41_frame.md` R110, R113). -/

namespace Sys2Proof.Machine

/-- One step of the host in a run (R171). -/
inductive HostStep where
  /-- A command word is presented, accepted, and retired before the next step. -/
  | command (w : Word32)
  /-- A further reset (R161). -/
  | reset
deriving DecidableEq, Repr

/-- The host step as an action of the host. -/
def HostStep.action : HostStep → EnvAction
  | .command w => .offer w
  | .reset => .reset

/-- The effect of a host step. The word a command makes is taken by its sink within the step, so that
the command has retired at its end (R171; log entry 14). -/
def hostStep : HostStep → State → StepResult
  | .command w, s => thenDo (acceptWord w s) fun t => .next t.retire
  | .reset, s => .next s.resetBlock

/-- The effect of a sequence of host steps. -/
def runSteps : List HostStep → State → StepResult
  | [], s => .next s
  | x :: xs, s => thenDo (hostStep x s) fun t => runSteps xs t

/-- A run: a reset followed by a finite sequence of host steps (R171). -/
def run (steps : List HostStep) : StepResult := runSteps steps State.reset

/-- The result of a run (R171): registers 0 to 11 and the two traces. -/
def runResult (steps : List HostStep) : Option Observation :=
  match run steps with
  | .next t => some t.observe
  | _ => none

/-! ### Commands in a frame -/

/-- The sample of a PIX (`41_frame.md` R112). -/
def sampleOf : Instr → Option Word16
  | .nop => none
  | .setReg _ _ => none
  | .getReg _ => none
  | .mapSample _ _ => none
  | .beginFrame => none
  | .pix imm => some imm

/-- The commands that may stand in a frame: PIX, and NOP, GET and MAP between (R110). -/
def mayStandInFrame : Instr → Bool
  | .nop => true
  | .setReg _ _ => false
  | .getReg r => decide (r.toNat ≤ 11)
  | .mapSample c _ => decide (c.toNat ≤ 2)
  | .beginFrame => false
  | .pix _ => true

/-- The commands that make a response word (`20_memory.md` R55). -/
def answers : Instr → Bool
  | .nop => false
  | .setReg _ _ => false
  | .getReg _ => true
  | .mapSample _ _ => true
  | .beginFrame => false
  | .pix _ => false

/-- The host presents the words of these commands, one after the other. -/
def present (is : List Instr) : List HostStep := is.map fun i => .command (encode i)

/-! ### The frames of a run -/

/-- The pixel that sample number `n` of a frame becomes (R112, R113): the three outputs of its value,
`eol` at the last column and `eof` at the last sample. -/
def framePixel (s : State) (n : Nat) (v : Word16) : Pixel where
  data := s.pixelData v
  eol := decide (n % s.width.toNat + 1 = s.width.toNat)
  eof := decide (n + 1 = s.width.toNat * s.height.toNat)

/-- A frame of a run: a BEGIN that did not fault, and the samples of the PIX executed in it. -/
structure RunFrame where
  /-- The state just after the BEGIN, with the configuration the frame uses. -/
  opened : State
  /-- The samples, in the order they were sent. -/
  samples : List Word16
deriving DecidableEq, Repr

/-- `WIDTH * HEIGHT` of a frame. -/
def RunFrame.size (f : RunFrame) : Nat := f.opened.width.toNat * f.opened.height.toNat

/-- Every sample of the grid was converted. -/
def RunFrame.isWhole (f : RunFrame) : Bool := decide (f.samples.length = f.size)

/-- The pixels of a frame, with the marks of R113. -/
def RunFrame.pixels (f : RunFrame) : List Pixel := f.samples.mapIdx (framePixel f.opened)

/-- The sample that a host step presents, if its word is a PIX. -/
def HostStep.sample : HostStep → Option Word16
  | .command w => (decode w).toOption.bind sampleOf
  | .reset => none

/-- The samples of the frame that is open in `s`, up to the end of the frame or of the steps. -/
def frameSamples : List HostStep → State → List Word16
  | [], _ => []
  | x :: xs, s =>
    if s.phase = .busy then
      match hostStep x s with
      | .next t => x.sample.toList ++ frameSamples xs t
      | _ => []
    else []

/-- The host step is a BEGIN and opened a frame. -/
def opensFrame (x : HostStep) (s t : State) : Bool :=
  x == .command (encode .beginFrame) && s.phase == .idle && t.phase == .busy

/-- The frames that a sequence of host steps opens, in order, each with the samples it got. -/
def framesOf : List HostStep → State → List RunFrame
  | [], _ => []
  | x :: xs, s =>
    match hostStep x s with
    | .next t => if opensFrame x s t then ⟨t, frameSamples xs t⟩ :: framesOf xs t else framesOf xs t
    | _ => []

/-! ### The end of a run (R171) -/

/-- `FAULT = 0` and `BUSY = 0`: the run has not aborted and no frame is unfinished. -/
def State.ranToCompletion (s : State) : Bool := !s.faulted && !s.busy

/-- The command at which a run that ends with `FAULT = 1` aborted. -/
def State.abortedAt (s : State) : Option Word32 := if s.faulted then some s.fword else none

/-- The run has converted its frames correctly: it ran to completion, and its pixel trace is the
concatenation, over the successful BEGINs in order, of the `WIDTH * HEIGHT` pixels of that frame. R171
says so for a run with no reset after its first. DESIGN CHOICE (log entry 15): for a run with later
resets the same test answers, false where a reset cut a frame short. Safe: no statement rests on it. -/
def convertedItsFrames (steps : List HostStep) : Bool :=
  match run steps with
  | .next t =>
    t.ranToCompletion && (framesOf steps State.reset).all RunFrame.isWhole &&
      t.pixels == (framesOf steps State.reset).flatMap RunFrame.pixels
  | _ => false

end Sys2Proof.Machine
end

