-- ==== Sys2Proof/Safety.lean ====
section
/-! DEFINITION. The terms claims about CLIS are stated in: what stays the same, which fault a word
raises, and the invariant of the reachable states. -/

namespace Sys2Proof.Machine

/-- The registers outside `changed` read in `t` as they read in `s`, all bits. -/
def RegsSameBut (changed : List Nat) (s t : State) : Prop :=
  ∀ r : BitVec 4, r.toNat ∉ changed → t.readReg r = s.readReg r

/-- All twelve registers read in `t` as in `s`. -/
def RegsSame (s t : State) : Prop := RegsSameBut [] s t

/-- No output word was produced: both traces and the word on offer are as they were. -/
def NoOutput (s t : State) : Prop :=
  t.pixels = s.pixels ∧ t.responses = s.responses ∧ t.held = s.held

/-- The other agents' part of the state is as it was. -/
def SameWorld (s t : State) : Prop :=
  t.pReady = s.pReady ∧ t.rReady = s.rReady ∧ t.env = s.env

/-- `t` is `s` after fault entry with cause `k` at the word `w` (`60_exceptions.md` R140), said
register by register. -/
def FaultTaken (k : Cause) (w : Word32) (s t : State) : Prop :=
  t.faulted = true ∧ statusCause t.status = causeCode k ∧ t.fword = w ∧
    t.busy = s.busy ∧ t.done = s.done ∧
    statusReserved t.status = statusReserved s.status ∧
    RegsSameBut [8, 11] s t ∧ NoOutput s t ∧ SameWorld s t

/-- The fault that the word `w` raises in `s`, if any, by the table of R135 and the priority of R139. -/
def faultOf (w : Word32) (s : State) : Option Cause :=
  if s.faulted then none
  else
    match decode w with
    | .error _ => some .illegal
    | .ok .nop => none
    | .ok (.getReg _) => none
    | .ok (.mapSample _ _) => none
    | .ok (.setReg _ _) => if s.busy then some .seq else none
    | .ok (.pix _) => if s.busy then none else some .seq
    | .ok .beginFrame =>
      if s.busy then some .seq
      else if s.width = 0 ∨ s.height = 0 then some .dim
      else if s16 s.lo0 > s16 s.hi0 ∨ s16 s.lo1 > s16 s.hi1 ∨ s16 s.lo2 > s16 s.hi2 then some .range
      else none

/-- What holds at reset and after every step. -/
structure State.Inv (s : State) : Prop where
  /-- The reserved bits of `STATUS` read 0 (`10_state.md` R28). -/
  reserved_zero : statusReserved s.status = 0
  /-- `CAUSE` is 0 exactly when `FAULT` is 0 (R28). -/
  cause_zero_iff : statusCause s.status = 0 ↔ s.faulted = false
  /-- Codes 5 to 15 are never produced (R28). -/
  cause_le : (statusCause s.status).toNat ≤ 4
  /-- `BUSY` and `DONE` are never both 1 (R28). -/
  not_busy_and_done : ¬(s.busy = true ∧ s.done = true)
  /-- `FWORD` is 0 when no fault has been taken (R31). -/
  fword_zero : s.faulted = false → s.fword = 0
  /-- In a frame the position is inside the grid (R33). -/
  position_inside : s.busy = true → s.xpos.toNat < s.width.toNat ∧ s.ypos.toNat < s.height.toNat
  /-- In a frame no range is reversed (`41_frame.md` R111). -/
  ranges_ordered : s.busy = true → s.anyReversed = false
  /-- Outside a frame both counters are 0 (R33). -/
  position_zero : s.busy = false → s.xpos = 0 ∧ s.ypos = 0
  /-- A word on offer waits because its sink is not ready (`20_memory.md` R53, R55). -/
  held_waits : ∀ o, s.held = some o → s.sinkReady o = false
  /-- A pixel on offer belongs to the open frame and carries the marks of the current position: no
  command was accepted after the PIX that made it (R55). -/
  held_pixel : ∀ p, s.held = some (.pixel p) →
    s.phase = .busy ∧ p.eol = s.atRowEnd ∧ p.eof = s.atFrameEnd

/-- The fault record is true: `FWORD` is a word that, with the registers as they stand, raises the
fault `CAUSE` names (`60_exceptions.md` R135, R140). Nothing a fault depends on changes after it. -/
def State.FaultRecord (s : State) : Prop :=
  s.faulted = true →
    (statusCause s.status = 1 ∧ (decode s.fword).toOption = none) ∨
    (statusCause s.status = 2 ∧ s.busy = true ∧
      ((∃ r imm, decode s.fword = .ok (.setReg r imm)) ∨ decode s.fword = .ok .beginFrame)) ∨
    (statusCause s.status = 2 ∧ s.busy = false ∧ ∃ imm, decode s.fword = .ok (.pix imm)) ∨
    (statusCause s.status = 3 ∧ s.busy = false ∧ decode s.fword = .ok .beginFrame ∧
      (s.width = 0 ∨ s.height = 0)) ∨
    (statusCause s.status = 4 ∧ s.busy = false ∧ decode s.fword = .ok .beginFrame ∧
      s.width ≠ 0 ∧ s.height ≠ 0 ∧ s.anyReversed = true)

end Sys2Proof.Machine
end

