-- ==== Sys2Proof/Certificates/Slice0/Obligations.lean ====
section
/-! DEFINITION. The statements for the provers. Each docstring names the rule of spec/ it formalises. -/

open Sys2Proof Sys2Proof.Machine

/-! ### Encoding -/

/-- `30_encoding.md` R70 to R72: a word decodes to a command exactly when the command's operands are
in range and the word is its encoding. So decoding undoes encoding for every well-formed command with
every operand value, and each well-formed word has one command. -/
def Obligations.DecodeEncodeAgree : Prop :=
  ∀ (w : Word32) (i : Instr), decode w = .ok i ↔ i.wellFormed = true ∧ encode i = w

/-- R76: the command of a word, from the four numbers `op`, `r`, `z`, `imm` it is made of by R70. -/
def Obligations.FieldsDecideTheCommand : Prop :=
  ∀ op r z imm : Nat, op < 16 → r < 16 → z < 256 → imm < 65536 →
    (decode (BitVec.ofNat 32 (op * 2 ^ 28 + r * 2 ^ 24 + z * 2 ^ 16 + imm))).toOption =
      if z ≠ 0 then none
      else if op = 0 then (if r = 0 ∧ imm = 0 then some .nop else none)
      else if op = 1 then
        (if r ≤ 7 then some (.setReg (BitVec.ofNat 4 r) (BitVec.ofNat 16 imm)) else none)
      else if op = 2 then (if r ≤ 11 ∧ imm = 0 then some (.getReg (BitVec.ofNat 4 r)) else none)
      else if op = 3 then
        (if r ≤ 2 then some (.mapSample (BitVec.ofNat 4 r) (BitVec.ofNat 16 imm)) else none)
      else if op = 4 then (if r = 0 ∧ imm = 0 then some .beginFrame else none)
      else if op = 5 then (if r = 0 then some (.pix (BitVec.ofNat 16 imm)) else none)
      else none

/-- R72: the words with a row's fixed bits and further condition are exactly the words that decode to
its command, each row has the stated number of them, and there are 786446 well-formed words. -/
def Obligations.TableRowsAdmitTheirWords : Prop :=
  (∀ row ∈ opcodeTable,
    (∀ w, row.admits w = true ↔ decode w = .ok (row.command (rField w) (immField w))) ∧
    (Finset.univ.filter fun w => row.admits w = true).card = row.words) ∧
  (∀ row ∈ opcodeTable, ∀ row' ∈ opcodeTable, ∀ w,
    row.admits w = true → row'.admits w = true → row.pattern = row'.pattern) ∧
  (Finset.univ.filter fun w => (decode w).toOption.isSome = true).card = 786446

/-- R77: a decoder written from the table alone is the decoder of R76. -/
def Obligations.TableDecoderIsTheDecoder : Prop :=
  ∀ w, decodeByTable w = (decode w).toOption

/-- R78: the four ways for a word to be malformed, and what a malformed word does in each phase. -/
def Obligations.MalformedWordIsIllegal : Prop :=
  (∀ w, (decode w).toOption = none ↔
    6 ≤ (opField w).toNat ∨ zField w ≠ 0 ∨
    (opField w = 1 ∧ 8 ≤ (rField w).toNat) ∨ (opField w = 2 ∧ 12 ≤ (rField w).toNat) ∨
    (opField w = 3 ∧ 3 ≤ (rField w).toNat) ∨
    ((opField w = 0 ∨ opField w = 4 ∨ opField w = 5) ∧ rField w ≠ 0) ∨
    ((opField w = 0 ∨ opField w = 2 ∨ opField w = 4) ∧ immField w ≠ 0)) ∧
  (∀ w s, (decode w).toOption = none → s.phase ≠ .faulted →
    ∃ t, acceptWord w s = .next t ∧ FaultTaken .illegal w s t) ∧
  (∀ w s, (decode w).toOption = none → s.phase = .faulted → acceptWord w s = .next s)

/-- R80: the all-zero word is NOP and does nothing; the all-one word is malformed and faults at once. -/
def Obligations.FloatingCommandPort : Prop :=
  decode 0x00000000 = .ok .nop ∧ (∀ s, acceptWord 0x00000000 s = .next s) ∧
  (decode 0xFFFFFFFF).toOption = none ∧ opField 0xFFFFFFFF = 0xF ∧
  ∀ s, s.phase ≠ .faulted →
    ∃ t, acceptWord 0xFFFFFFFF s = .next t ∧ FaultTaken .illegal 0xFFFFFFFF s t

/-- R79: every word has a defined effect in every state, and no word but the all-zero one, NOP, is
without effect in all of them. -/
def Obligations.OnlyTheZeroWordNeverActs : Prop :=
  (∀ w s, ∃ t, acceptWord w s = .next t) ∧
  ∀ w, (∀ s, acceptWord w s = .next s) ↔ w = 0x00000000

/-- `95_test_vectors.md` V40 to V47: words written out from the encoding, with what they stand for. -/
def Obligations.SampleWordsDecode : Prop :=
  decode 0x00000000 = .ok .nop ∧ decode 0x1000FC18 = .ok (.setReg 0 0xFC18) ∧
  decode 0x1700FFFF = .ok (.setReg 7 0xFFFF) ∧ decode 0x2B000000 = .ok (.getReg 11) ∧
  decode 0x32008000 = .ok (.mapSample 2 0x8000) ∧ decode 0x40000000 = .ok .beginFrame ∧
  decode 0x5000FE70 = .ok (.pix 0xFE70) ∧ (decode 0x18000005).toOption = none ∧
  (decode 0x2C000000).toOption = none ∧ (decode 0x33000000).toOption = none

/-! ### The signed reading and the function `map` -/

/-- `00_scope.md` R11: the range of `S16`, and that it undoes `W16`; `W16` is the remainder mod
2^16. The spec takes two's complement from general knowledge (log entry 7). -/
def Obligations.SignedReadingUndoesEncoding : Prop :=
  (∀ w, -32768 ≤ s16 w ∧ s16 w ≤ 32767) ∧
  (∀ i : Int, -32768 ≤ i → i ≤ 32767 → s16 (w16 i) = i) ∧
  (∀ i : Int, -32768 ≤ i → i ≤ 65535 → ((w16 i).toNat : Int) = i % 65536) ∧
  (∀ w, w16 (s16 w) = w ∧ w16 (u16 w) = w)

/-- `40_mapper.md` R91, R92, R93: clamp low, clamp high, and the degenerate range. -/
def Obligations.MapClampsAndDegenerateRange : Prop :=
  ∀ v lo hi : Int,
    (v < lo → mapValue v lo hi = 0) ∧
    (lo ≤ v → hi < v → mapValue v lo hi = 255) ∧
    (lo = hi → mapValue v lo hi = if v < lo then 0 else 255)

/-- R94: on the linear path the result is the mathematical floor of `255 * (v - lo) / (hi - lo)`. -/
def Obligations.MapIsTheExactFloor : Prop :=
  (∀ v lo hi : Int, lo ≤ v → v ≤ hi → lo < hi →
    mapValue v lo hi * (hi - lo) ≤ 255 * (v - lo) ∧
    255 * (v - lo) < (mapValue v lo hi + 1) * (hi - lo) ∧
    mapValue v lo hi = ⌊(255 * (v - lo) : ℚ) / (hi - lo : ℚ)⌋) ∧
  mapValue (-400) (-1000) 200 = 127 ∧ mapValue 0 (-1000) 200 = 212

/-- R99: with `lo > hi` the function is the step 0 below `lo`, 255 from `lo` up, whatever `hi` is. -/
def Obligations.MapOfReversedRangeIsAStep : Prop :=
  ∀ v lo hi hi' : Int, hi < lo → hi' < lo →
    mapValue v lo hi = (if v < lo then 0 else 255) ∧ mapValue v lo hi = mapValue v lo hi'

/-- R101: the boundary values of a proper range, and that 255 is reached inside it only at the top. -/
def Obligations.MapBoundaryValues : Prop :=
  ∀ lo hi : Int, lo < hi →
    mapValue lo lo hi = 0 ∧ mapValue hi lo hi = 255 ∧
    ∀ v, lo ≤ v → v < hi → mapValue v lo hi ≤ 254

/-- R102 (a) to (e): range, monotonicity, which offsets give which output, shift invariance, and the
identity on (0, 255). -/
def Obligations.MapDerivedProperties : Prop :=
  (∀ v lo hi : Int, 0 ≤ mapValue v lo hi ∧ mapValue v lo hi ≤ 255) ∧
  (∀ a b lo hi : Int, a ≤ b → mapValue a lo hi ≤ mapValue b lo hi) ∧
  (∀ lo hi d k : Int, lo < hi → 0 ≤ d → d ≤ hi - lo → 0 ≤ k → k ≤ 254 →
    (mapValue (lo + d) lo hi = k ↔ k * (hi - lo) ≤ 255 * d ∧ 255 * d < (k + 1) * (hi - lo))) ∧
  (∀ lo hi : Int, lo < hi → hi - lo < 255 →
    ∃ k, 0 ≤ k ∧ k ≤ 254 ∧ ∀ v, lo ≤ v → v ≤ hi → mapValue v lo hi ≠ k) ∧
  (∀ v lo : Int, mapValue v lo (lo + 1) = 0 ∨ mapValue v lo (lo + 1) = 255) ∧
  (∀ v lo : Int, mapValue v lo (lo + 2) = 0 ∨ mapValue v lo (lo + 2) = 127 ∨
    mapValue v lo (lo + 2) = 255) ∧
  (∀ v lo hi t : Int, mapValue (v + t) (lo + t) (hi + t) = mapValue v lo hi) ∧
  (∀ v : Int, 0 ≤ v → v ≤ 255 → mapValue v 0 255 = v)

/-- R96: with 17-bit subtractions, a 16-bit offset and span, a 24-bit product and an 8-bit quotient
the function is computed exactly: no intermediate overflows. -/
def Obligations.DatapathWidthsSuffice : Prop :=
  (∀ v lo hi : Word16,
    ((mapDatapath v lo hi).toNat : Int) = mapValue (s16 v) (s16 lo) (s16 hi)) ∧
  (∀ v lo hi : Word16, s16 lo ≤ s16 v → s16 v ≤ s16 hi → s16 lo < s16 hi →
    ((distance v lo).toNat : Int) = s16 v - s16 lo ∧
    ((distance hi lo).toNat : Int) = s16 hi - s16 lo ∧
    (distance v lo).toNat ≤ (distance hi lo).toNat ∧ 1 ≤ (distance hi lo).toNat ∧
    (product (distance v lo)).toNat = 255 * (distance v lo).toNat ∧
    (product (distance v lo)).toNat ≤ 16711425 ∧
    (product (distance v lo)).toNat / (distance hi lo).toNat ≤ 255)

/-! ### MAP -/

/-- R103: MAP answers the mapped sample, zero-extended, in phases IDLE and BUSY and changes nothing
else; FAULTED discards it; a channel above 2 is ILLEGAL. The bounds are read as GET reads them. -/
def Obligations.MapCommandAnswers : Prop :=
  (∀ (c : BitVec 4) (imm lo hi : Word16) (s : State), c.toNat ≤ 2 → s.phase ≠ .faulted →
    s.rReady = true →
    s.readReg (2 * c) = some (lo.zeroExtend 32) → s.readReg (2 * c + 1) = some (hi.zeroExtend 32) →
    ∃ (w : Word32) (t : State), exec (.mapSample c imm) s = .next t ∧
      t = { s with responses := s.responses ++ [w] } ∧
      (w.toNat : Int) = mapValue (s16 imm) (s16 lo) (s16 hi) ∧ w.toNat ≤ 0xFF) ∧
  (∀ c imm s, s.phase = .faulted → exec (.mapSample c imm) s = .next s) ∧
  (∀ w s, opField w = 3 → 2 < (rField w).toNat ∨ zField w ≠ 0 → s.phase ≠ .faulted →
    ∃ t, acceptWord w s = .next t ∧ FaultTaken .illegal w s t) ∧
  (∀ (c : BitVec 4) (imm : Word16),
    (encode (.mapSample c imm)).toNat = 0x30000000 + c.toNat * 0x01000000 + imm.toNat) ∧
  (∀ s, s.phase ≠ .faulted → s.rReady = true → s.lo0 = 0xFC18 → s.hi0 = 0x00C8 →
    acceptWord 0x3000FE70 s = .next { s with responses := s.responses ++ [0x0000007F] }) ∧
  mapValue (s16 0x8000) (s16 0x8000) (s16 0x7FFF) = 0 ∧
  mapValue (s16 0x7FFF) (s16 0x8000) (s16 0x7FFF) = 255 ∧
  mapValue (s16 0x0000) (s16 0x8000) (s16 0x7FFF) = 127

/-- R100: what MAP answers depends on the sample and its own channel's range alone: two states that
agree on that range get the same word, whatever else differs. -/
def Obligations.MapAnswerDependsOnItsRangeAlone : Prop :=
  ∀ (c : BitVec 4) (imm : Word16) (s s' : State), c.toNat ≤ 2 →
    s.phase ≠ .faulted → s'.phase ≠ .faulted → s.rReady = true → s'.rReady = true →
    s.readReg (2 * c) = s'.readReg (2 * c) → s.readReg (2 * c + 1) = s'.readReg (2 * c + 1) →
    ∃ w, exec (.mapSample c imm) s = .next { s with responses := s.responses ++ [w] } ∧
      exec (.mapSample c imm) s' = .next { s' with responses := s'.responses ++ [w] }

/-! ### NOP, SET, GET -/

/-- `42_config_access.md` R125: NOP changes nothing in any phase; a word with `op` 0 that is not all
zero is ILLEGAL in phases IDLE and BUSY. -/
def Obligations.NopHasNoEffect : Prop :=
  (∀ s, exec .nop s = .next s) ∧ encode .nop = 0x00000000 ∧
  (∀ w s, opField w = 0 → w ≠ 0 → s.phase ≠ .faulted →
    ∃ t, acceptWord w s = .next t ∧ FaultTaken .illegal w s t)

/-- R126: SET in phase IDLE stores all 16 bits in one register and does nothing else; SEQ in phase
BUSY, discarded in phase FAULTED, ILLEGAL above register 7. -/
def Obligations.SetWritesOneRegister : Prop :=
  (∀ (r : BitVec 4) (imm : Word16) (s : State), r.toNat ≤ 7 → s.phase = .idle →
    ∃ t, exec (.setReg r imm) s = .next t ∧ t.readReg r = some (imm.zeroExtend 32) ∧
      RegsSameBut [r.toNat] s t ∧ NoOutput s t ∧ SameWorld s t) ∧
  (∀ (r : BitVec 4) imm s, r.toNat ≤ 7 → s.phase = .busy →
    ∃ t, exec (.setReg r imm) s = .next t ∧ FaultTaken .seq (encode (.setReg r imm)) s t) ∧
  (∀ r imm s, s.phase = .faulted → exec (.setReg r imm) s = .next s) ∧
  (∀ w s, opField w = 1 → 7 < (rField w).toNat ∨ zField w ≠ 0 → s.phase ≠ .faulted →
    ∃ t, acceptWord w s = .next t ∧ FaultTaken .illegal w s t) ∧
  (∀ (r : BitVec 4) (imm : Word16),
    (encode (.setReg r imm)).toNat = 0x10000000 + r.toNat * 0x01000000 + imm.toNat) ∧
  (∀ s, s.phase = .idle → acceptWord 0x1000FC18 s = .next { s with lo0 := 0xFC18 }) ∧
  s16 0xFC18 = -1000

/-- R127: GET answers one register in every phase and changes nothing else; the signed registers come
back as their raw 16 bits. A number above 11 is ILLEGAL, or discarded in phase FAULTED. -/
def Obligations.GetAnswersTheRegister : Prop :=
  (∀ s, s.rReady = true →
    exec (.getReg 0) s = .next { s with responses := s.responses ++ [s.lo0.zeroExtend 32] } ∧
    exec (.getReg 1) s = .next { s with responses := s.responses ++ [s.hi0.zeroExtend 32] } ∧
    exec (.getReg 2) s = .next { s with responses := s.responses ++ [s.lo1.zeroExtend 32] } ∧
    exec (.getReg 3) s = .next { s with responses := s.responses ++ [s.hi1.zeroExtend 32] } ∧
    exec (.getReg 4) s = .next { s with responses := s.responses ++ [s.lo2.zeroExtend 32] } ∧
    exec (.getReg 5) s = .next { s with responses := s.responses ++ [s.hi2.zeroExtend 32] } ∧
    exec (.getReg 6) s = .next { s with responses := s.responses ++ [s.width.zeroExtend 32] } ∧
    exec (.getReg 7) s = .next { s with responses := s.responses ++ [s.height.zeroExtend 32] } ∧
    exec (.getReg 8) s = .next { s with responses := s.responses ++ [s.status.zeroExtend 32] } ∧
    exec (.getReg 9) s = .next { s with responses := s.responses ++ [s.xpos.zeroExtend 32] } ∧
    exec (.getReg 10) s = .next { s with responses := s.responses ++ [s.ypos.zeroExtend 32] } ∧
    exec (.getReg 11) s = .next { s with responses := s.responses ++ [s.fword] }) ∧
  (∀ (r : BitVec 4) (w : Word32) (s : State), r.toNat ≤ 10 → s.readReg r = some w → w.toNat ≤ 0x0000FFFF) ∧
  (∀ w s, opField w = 2 → 11 < (rField w).toNat ∨ zField w ≠ 0 ∨ immField w ≠ 0 →
    (s.phase ≠ .faulted → ∃ t, acceptWord w s = .next t ∧ FaultTaken .illegal w s t) ∧
    (s.phase = .faulted → acceptWord w s = .next s)) ∧
  (∀ r : BitVec 4, (encode (.getReg r)).toNat = 0x20000000 + r.toNat * 0x01000000) ∧
  (∀ s, s.rReady = true → s.hi0 = 0x00C8 →
    acceptWord 0x21000000 s = .next { s with responses := s.responses ++ [0x000000C8] })

/-- `20_memory.md` R62: reading has no side effect. GET and MAP change no register, and two GETs of
one register with a NOP, a GET or a MAP between them answer the same word. -/
def Obligations.ReadsHaveNoSideEffect : Prop :=
  ∀ (r : BitVec 4) (i : Instr) (s : State), r.toNat ≤ 11 → s.rReady = true →
    (i = .nop ∨ (∃ r', i = .getReg r' ∧ r'.toNat ≤ 11) ∨
      (∃ c imm, i = .mapSample c imm ∧ c.toNat ≤ 2)) →
    ∃ t u v w, exec (.getReg r) s = .next t ∧ exec i t = .next u ∧ exec (.getReg r) u = .next v ∧
      RegsSame s t ∧ RegsSame s u ∧ RegsSame s v ∧
      t.responses = s.responses ++ [w] ∧ v.responses = u.responses ++ [w]

/-- `70_reset_and_hazards.md` R167 with `20_memory.md` R66 (c): a SET takes effect for the very next
command: GET of the register answers the word just written. -/
def Obligations.SetTakesEffectAtOnce : Prop :=
  ∀ (r : BitVec 4) (imm : Word16) (s : State), r.toNat ≤ 7 → s.phase = .idle → s.rReady = true →
    ∃ t u, exec (.setReg r imm) s = .next t ∧ exec (.getReg r) t = .next u ∧
      u.responses = s.responses ++ [imm.zeroExtend 32]

/-! ### BEGIN and PIX -/

/-- `41_frame.md` R111: BEGIN opens a frame where the grid is not empty and no range is reversed, and
changes nothing but `BUSY`, `DONE`, `XPOS`, `YPOS`; else it takes the first of SEQ, DIM, RANGE. -/
def Obligations.BeginOpensAFrame : Prop :=
  (∀ s, s.phase = .idle → s.width ≠ 0 → s.height ≠ 0 →
    s16 s.lo0 ≤ s16 s.hi0 → s16 s.lo1 ≤ s16 s.hi1 → s16 s.lo2 ≤ s16 s.hi2 →
    ∃ t, exec .beginFrame s = .next t ∧ t.busy = true ∧ t.done = false ∧
      t.faulted = s.faulted ∧ statusCause t.status = statusCause s.status ∧
      statusReserved t.status = statusReserved s.status ∧
      t.xpos = 0 ∧ t.ypos = 0 ∧ RegsSameBut [8, 9, 10] s t ∧ NoOutput s t ∧ SameWorld s t ∧
      (s.status = 0x0000 → t.status = 0x0001)) ∧
  (∀ s, s.phase = .busy →
    ∃ t, exec .beginFrame s = .next t ∧ FaultTaken .seq 0x40000000 s t) ∧
  (∀ s, s.phase = .idle → s.width = 0 ∨ s.height = 0 →
    ∃ t, exec .beginFrame s = .next t ∧ FaultTaken .dim 0x40000000 s t) ∧
  (∀ s, s.phase = .idle → s.width ≠ 0 → s.height ≠ 0 →
    s16 s.lo0 > s16 s.hi0 ∨ s16 s.lo1 > s16 s.hi1 ∨ s16 s.lo2 > s16 s.hi2 →
    ∃ t, exec .beginFrame s = .next t ∧ FaultTaken .range 0x40000000 s t) ∧
  (∀ s, s.phase = .faulted → exec .beginFrame s = .next s) ∧
  encode .beginFrame = 0x40000000

/-- R112: PIX in phase BUSY emits one pixel word and moves one place forward in row-major order, the
last one of a frame closing it; SEQ in phase IDLE, discarded in phase FAULTED. -/
def Obligations.PixEmitsOnePixelAndAdvances : Prop :=
  (∀ (imm : Word16) (s : State), s.phase = .busy → s.pReady = true →
    ∃ p t, exec (.pix imm) s = .next t ∧ t.pixels = s.pixels ++ [p] ∧
      (p.data.toNat : Int) = mapValue (s16 imm) (s16 s.lo2) (s16 s.hi2) * 65536 +
        mapValue (s16 imm) (s16 s.lo1) (s16 s.hi1) * 256 +
        mapValue (s16 imm) (s16 s.lo0) (s16 s.hi0) ∧
      (p.eol = true ↔ u16 s.xpos = u16 s.width - 1) ∧
      (p.eof = true ↔ p.eol = true ∧ u16 s.ypos = u16 s.height - 1) ∧
      (p.eof = true → t.busy = false ∧ t.done = true ∧ t.xpos = 0 ∧ t.ypos = 0) ∧
      (p.eof = false → t.status = s.status) ∧
      (p.eof = false → p.eol = true → t.xpos = 0 ∧ t.ypos = s.ypos + 1) ∧
      (p.eof = false → p.eol = false → t.xpos = s.xpos + 1 ∧ t.ypos = s.ypos) ∧
      t.faulted = s.faulted ∧ statusCause t.status = statusCause s.status ∧
      statusReserved t.status = statusReserved s.status ∧
      RegsSameBut [8, 9, 10] s t ∧ t.responses = s.responses ∧ t.held = s.held ∧ SameWorld s t) ∧
  (∀ imm s, s.phase = .idle →
    ∃ t, exec (.pix imm) s = .next t ∧ FaultTaken .seq (encode (.pix imm)) s t) ∧
  (∀ imm s, s.phase = .faulted → exec (.pix imm) s = .next s) ∧
  (∀ imm : Word16, (encode (.pix imm)).toNat = 0x50000000 + imm.toNat) ∧
  (∀ w s, opField w = 5 → rField w ≠ 0 ∨ zField w ≠ 0 → s.phase ≠ .faulted →
    ∃ t, acceptWord w s = .next t ∧ FaultTaken .illegal w s t) ∧
  (∀ s, s.phase = .busy → s.pReady = true → s.status = 0x0001 →
    s.lo0 = 0xFC18 → s.hi0 = 0x00C8 → s.lo1 = 0xFC18 → s.hi1 = 0x00C8 → s.lo2 = 0xFC18 →
    s.hi2 = 0x00C8 → s.width = 2 → s.height = 2 → s.xpos = 1 → s.ypos = 1 →
    ∃ t, acceptWord 0x50000000 s = .next t ∧ t.status = 0x0002 ∧
      t.pixels = s.pixels ++ [⟨0xD4D4D4, true, true⟩])

/-- R116: lane `c` of a pixel is `map` of the sample through channel `c`, and does not change when
only the other channels' ranges do. -/
def Obligations.LanesDoNotInteract : Prop :=
  ∀ (c : BitVec 4) (rg : ChannelRange) (imm : Word16) (s s' : State),
    s.channelRange c = some rg → s'.channelRange c = some rg →
    ((lane (s.pixelData imm) c.toNat).toNat : Int) = mapValue (s16 imm) (s16 rg.low) (s16 rg.high) ∧
    lane (s'.pixelData imm) c.toNat = lane (s.pixelData imm) c.toNat

/-- `20_memory.md` R57: the pixel word is `o2 o1 o0` from the top, its bytes leave lane 0 first, and
the example V31 of three different ranges. -/
def Obligations.PixelByteOrder : Prop :=
  (∀ (imm : Word16) (s : State) (eol eof : Bool),
    (Pixel.bytes ⟨s.pixelData imm, eol, eof⟩).map (fun b => (b.toNat : Int)) =
      [mapValue (s16 imm) (s16 s.lo0) (s16 s.hi0), mapValue (s16 imm) (s16 s.lo1) (s16 s.hi1),
        mapValue (s16 imm) (s16 s.lo2) (s16 s.hi2)] ∧
    s.pixelData imm = lane (s.pixelData imm) 2 ++ lane (s.pixelData imm) 1 ++
      lane (s.pixelData imm) 0) ∧
  (∀ s : State, s.lo0 = 0xFC18 → s.hi0 = 0x00C8 → s.lo1 = 0xFF60 → s.hi1 = 0x00F0 →
    s.lo2 = 0 → s.hi2 = 0 → s.pixelData 0x0028 = 0xFF7FDD)

/-- `41_frame.md` R113, with R110: the traversal, in every frame. After commands that may stand in a
frame, PIX with NOP, GET and MAP between, of which `n` are PIX, fewer than all, the position is
`(n mod WIDTH, n div WIDTH)`, the frame is open, and the pixels emitted, and the one that the next PIX
emits, carry `eol` and `eof` exactly where R113 says. Each command has retired before the next (log
entry 14). -/
def Obligations.PixTraversalIsRowMajor : Prop :=
  ∀ (is : List Instr) (vs : List Word16) (s : State), (∀ i ∈ is, mayStandInFrame i = true) →
    is.filterMap sampleOf = vs → s.phase = .busy → s.held = none → s.xpos = 0 → s.ypos = 0 →
    vs.length < s.width.toNat * s.height.toNat →
    ∃ t rs, runSteps (present is) s = .next t ∧ t.phase = .busy ∧ t.held = none ∧
      t.xpos.toNat = vs.length % s.width.toNat ∧ t.ypos.toNat = vs.length / s.width.toNat ∧
      t.pixels = s.pixels ++ vs.mapIdx (framePixel s) ∧
      t.responses = s.responses ++ rs ∧ rs.length = (is.filter answers).length ∧
      RegsSameBut [9, 10] s t ∧ SameWorld s t ∧
      ∀ v, ∃ u, hostStep (.command (encode (.pix v))) t = .next u ∧
        u.pixels = t.pixels ++ [framePixel s vs.length v]

/-- R114 with R110 and R121: a whole frame, with any NOP, GET and MAP between and after its PIX, emits
exactly `WIDTH * HEIGHT` pixels, `HEIGHT` of them with `eol` and exactly the last with `eof`; it ends
in phase IDLE with `DONE`, the position (0, 0) and the writable registers unchanged; one more PIX is a
SEQ fault. Each command has retired before the next (log entry 14). -/
def Obligations.FrameHasTheShapeOfItsGrid : Prop :=
  ∀ (is : List Instr) (vs : List Word16) (s : State), (∀ i ∈ is, mayStandInFrame i = true) →
    is.filterMap sampleOf = vs → s.phase = .busy → s.held = none → s.xpos = 0 → s.ypos = 0 →
    0 < s.width.toNat * s.height.toNat → vs.length = s.width.toNat * s.height.toNat →
    ∃ t ps p rs, runSteps (present is) s = .next t ∧ t.pixels = s.pixels ++ ps ∧
      ps = vs.mapIdx (framePixel s) ∧ ps.length = s.width.toNat * s.height.toNat ∧
      (ps.filter fun q => q.eol).length = s.height.toNat ∧
      ps.getLast? = some p ∧ p.eof = true ∧ (ps.filter fun q => q.eof) = [p] ∧
      t.responses = s.responses ++ rs ∧ rs.length = (is.filter answers).length ∧
      t.phase = .idle ∧ t.done = true ∧ t.held = none ∧ t.xpos = 0 ∧ t.ypos = 0 ∧
      RegsSameBut [8, 9, 10] s t ∧ SameWorld s t ∧
      ∀ v, ∃ u, exec (.pix v) t = .next u ∧ FaultTaken .seq (encode (.pix v)) t u

/-- `70_reset_and_hazards.md` R171: the pixel trace of any sequence of host steps, resets and faults
among them, is the concatenation, over the successful BEGINs in order, of the pixels of that frame, as
many as its samples, with the marks of R113; a frame cut short has no `eof`. Each command has retired
before the next step (log entry 14). -/
def Obligations.RunEmitsItsFrames : Prop :=
  ∀ (steps : List HostStep) (s : State), s.held = none → s.phase ≠ .busy →
    ∃ t, runSteps steps s = .next t ∧ t.held = none ∧
      t.pixels = s.pixels ++ (framesOf steps s).flatMap RunFrame.pixels ∧
      ∀ f ∈ framesOf steps s, f.opened.phase = .busy ∧ f.samples.length ≤ f.size ∧
        (f.isWhole = false → ∀ p ∈ f.pixels, p.eof = false)

/-- R171, for a run with no reset after its first: it has converted its frames correctly exactly when
it ends with `FAULT` and `BUSY` 0; one that ends with `BUSY` 1 has an unfinished frame, its last. -/
def Obligations.CompletedRunHasConvertedItsFrames : Prop :=
  ∀ steps : List HostStep, HostStep.reset ∉ steps →
    ∃ t, run steps = .next t ∧ runResult steps = some t.observe ∧
      (convertedItsFrames steps = true ↔ t.faulted = false ∧ t.busy = false) ∧
      (t.busy = true →
        ∃ f, (framesOf steps State.reset).getLast? = some f ∧ f.samples.length < f.size)

/-- R171: a run that ends with `FAULT` 1 aborted at the command in `FWORD`: that command was presented
in a state where it raises a fault, and no reset came after it. -/
def Obligations.FaultedRunAbortedAtFword : Prop :=
  ∀ (steps : List HostStep) (s t : State), s.held = none → s.faulted = false →
    runSteps steps s = .next t → t.faulted = true →
    ∃ before after u, steps = before ++ .command t.fword :: after ∧ HostStep.reset ∉ after ∧
      runSteps before s = .next u ∧ (faultOf t.fword u).isSome = true ∧
      t.abortedAt = some t.fword

/-- R171 with `20_memory.md` R53, R55: host steps are steps of the machine. With ready sinks they are
the machine's steps on the host's actions, one for one; and a command whose sinks become ready only
after it was offered leaves what the host step leaves. The list of actions is the model's choice (log
entry 1), and so is a pin's change as one step (log entry 5); see also log entry 14. -/
def Obligations.HostStepsAreStepsOfTheMachine : Prop :=
  (∀ (steps : List HostStep) (rest : List EnvAction) (s : State), s.held = none →
    s.pReady = true → s.rReady = true → s.env = steps.map HostStep.action ++ rest →
    Sys2Proof.core.run steps.length s = runSteps steps { s with env := rest }) ∧
  ∀ (w : Word32) (rest : List EnvAction) (s : State), s.held = none →
    s.env = .offer w :: .drivePixelReady true :: .driveResponseReady true :: rest →
    ∃ t, hostStep (.command w) { s with env := rest } = .next t ∧
      Sys2Proof.core.run 3 s = .next { t with pReady := true, rReady := true }

/-- R115: an open frame is left only by its last pixel, a fault or reset. The actions to come as a
list in the state are the model's choice (log entry 1). -/
def Obligations.OpenFrameIsLeftOnlyThreeWays : Prop :=
  ∀ s t : State, s.Inv → s.phase = .busy → step s = .next t →
    t.phase = .busy ∨ t.phase = .faulted ∨
    (t.phase = .idle ∧ t.done = true ∧
      ∃ p, p.eof = true ∧ t.pixels = s.pixels ++ [p]) ∨
    ∃ u, s.nextAction = some (.reset, u)

/-! ### Faults -/

/-- `60_exceptions.md` R140: fault entry writes `FAULT`, `CAUSE` and `FWORD` and nothing else. -/
def Obligations.FaultEntryWritesItsRecordOnly : Prop :=
  ∀ (k : Cause) (w : Word32) (s : State),
    ∃ t, raiseFault k w s = .next t ∧ FaultTaken k w s t

/-- R135 with R139: an accepted word raises the one fault that the table and the priority give it,
and where they give none the block has taken no new fault. -/
def Obligations.EachWordRaisesItsFaultAndNoOther : Prop :=
  (∀ w s k, faultOf w s = some k → ∃ t, acceptWord w s = .next t ∧ FaultTaken k w s t) ∧
  (∀ w s, faultOf w s = none →
    ∃ t, acceptWord w s = .next t ∧ t.faulted = s.faulted ∧ t.fword = s.fword ∧
      statusCause t.status = statusCause s.status)

/-- R141: in phase FAULTED only well-formed NOP and GET execute; every other word is discarded, and
the record of the first fault and the position stay. -/
def Obligations.FaultedBlockRunsOnlyNopAndGet : Prop :=
  ∀ (w : Word32) (s : State), s.phase = .faulted →
    (decode w = .ok .nop → acceptWord w s = .next s) ∧
    (∀ r, decode w = .ok (.getReg r) → s.rReady = true →
      ∃ v, s.readReg r = some v ∧
        acceptWord w s = .next { s with responses := s.responses ++ [v] }) ∧
    (decode w ≠ .ok .nop → (∀ r, decode w ≠ .ok (.getReg r)) → acceptWord w s = .next s) ∧
    (∃ t, acceptWord w s = .next t ∧ RegsSame s t ∧ t.pixels = s.pixels)

/-- `60_exceptions.md` R142, R141: no step but a reset leaves phase FAULTED (R142), and none changes
a register or emits a pixel in it (R141). The actions to come as a list in the state are the model's
choice (log entry 1). -/
def Obligations.FaultIsLeftOnlyByReset : Prop :=
  ∀ s t : State, s.Inv → s.phase = .faulted → step s = .next t →
    (t.phase = .faulted ∧ RegsSame s t ∧ t.pixels = s.pixels) ∨
    ∃ u, s.nextAction = some (.reset, u) ∧ t.phase = .idle

/-- R140, R31: `FWORD` changes only at fault entry, where it becomes the word just accepted, and at
reset. The actions to come as a list in the state are the model's choice (log entry 1). -/
def Obligations.FwordIsWrittenByFaultEntryOnly : Prop :=
  ∀ s t : State, step s = .next t → t.fword ≠ s.fword →
    (∃ w u, s.nextAction = some (.offer w, u) ∧ s.phase ≠ .faulted ∧ t.phase = .faulted ∧
      t.fword = w) ∨
    ∃ u, s.nextAction = some (.reset, u) ∧ t.fword = 0

/-- The fault record is true at reset: no fault is recorded. -/
def Obligations.FaultRecordHoldsAtReset : Prop := State.reset.FaultRecord ∧ State.reset.Inv

/-- R135, R140, R141: every step keeps the fault record true: `FWORD` still is a word that, with the
registers as they stand, raises the recorded cause. The actions to come as a list in the state are
the model's choice (log entry 1). -/
def Obligations.StepKeepsTheFaultRecord : Prop :=
  ∀ s t : State, s.Inv → s.FaultRecord → step s = .next t → t.FaultRecord

/-! ### Invariants and rules of the whole machine -/

/-- `10_state.md` R40: the reset values, read register by register, the phase, and empty traces; a
later reset gives the same registers and leaves the traces. -/
def Obligations.ResetZeroesEveryRegister : Prop :=
  (∀ r : BitVec 4, r.toNat ≤ 11 → State.reset.readReg r = some 0) ∧ State.reset.phase = .idle ∧
  State.reset.pixels = [] ∧ State.reset.responses = [] ∧
  ∀ s : State, (∀ r : BitVec 4, r.toNat ≤ 11 → s.resetBlock.readReg r = some 0) ∧
    s.resetBlock.phase = .idle ∧ s.resetBlock.pixels = s.pixels ∧
    s.resetBlock.responses = s.responses

/-- R41: straight after reset MAP answers 0 for a negative sample and 255 otherwise, on any channel. -/
def Obligations.MapOfTheResetRange : Prop :=
  ∀ (c : BitVec 4) (imm : Word16) (s : State), c.toNat ≤ 2 → s.rReady = true →
    exec (.mapSample c imm) s.resetBlock =
      .next { s.resetBlock with
        responses := s.responses ++ [if s16 imm < 0 then 0x00000000 else 0x000000FF] }

/-- R28, R31, R33, `41_frame.md` R111, `20_memory.md` R55: every step keeps the invariant: reserved
bits of `STATUS` 0, `CAUSE` at most 4 and 0 exactly without a fault, never `BUSY` and `DONE`, the
position inside the grid and no range reversed during a frame and the position (0, 0) outside, and a
word on offer only where its sink is not ready. The actions to come as a list in the state (log entry
1), and a sink that becomes ready with the transfer this allows as one step (log entry 5), on which
the last clause rests, are the model's choice. -/
def Obligations.StepKeepsTheInvariant : Prop :=
  ∀ s t : State, s.Inv → step s = .next t → t.Inv

/-- R79, `70_reset_and_hazards.md` R170: a step always has a next state. R79 gives every word a
defined behaviour; that the faults of CLIS are next states and nothing stops the model is inferred
(log entry 10), and so is that a step where no action can happen answers the same state (log entry
11). The actions to come as a list in the state are the model's choice (log entry 1). -/
def Obligations.StepAlwaysGoesOn : Prop := ∀ s : State, ∃ t, step s = .next t

/-- R170, R126: the eight configuration registers are written by a SET accepted in phase IDLE, one
register at a time, or by reset, and by nothing else. The actions to come as a list in the state are
the model's choice (log entry 1). -/
def Obligations.OnlySetWritesTheConfiguration : Prop :=
  ∀ s t : State, step s = .next t →
    RegsSameBut [8, 9, 10, 11] s t ∨
    (∃ u, s.nextAction = some (.reset, u)) ∨
    ∃ w u r imm, s.nextAction = some (.offer w, u) ∧ decode w = .ok (.setReg r imm) ∧
      s.phase = .idle ∧ RegsSameBut [r.toNat] s t ∧ t.readReg r = some (imm.zeroExtend 32)

/-- `41_frame.md` R121: `DONE` stays 1 until a BEGIN that opens a frame, or reset. The actions to
come as a list in the state are the model's choice (log entry 1). -/
def Obligations.DoneStaysUntilBeginOrReset : Prop :=
  ∀ s t : State, step s = .next t → s.done = true → t.done = false →
    (∃ u, s.nextAction = some (.offer 0x40000000, u) ∧ t.busy = true) ∨
    ∃ u, s.nextAction = some (.reset, u)

/-- R119: the position moves by one pixel leaving the pixel port, by a BEGIN, which sets it to (0,
0), and by reset, and by nothing else. The actions to come as a list in the state are the model's
choice (log entry 1). -/
def Obligations.PositionMovesOnlyWithAPixel : Prop :=
  ∀ s t : State, step s = .next t →
    (t.xpos = s.xpos ∧ t.ypos = s.ypos) ∨
    (∃ p, t.pixels = s.pixels ++ [p]) ∨
    (∃ u, s.nextAction = some (.offer 0x40000000, u) ∧ t.xpos = 0 ∧ t.ypos = 0) ∨
    ∃ u, s.nextAction = some (.reset, u)

/-- `20_memory.md` R55, `10_state.md` R37: a step adds at most one word, to one of the two traces,
and takes none away, reset included. The actions to come as a list in the state are the model's
choice (log entry 1). -/
def Obligations.TracesOnlyGrow : Prop :=
  ∀ s t : State, step s = .next t →
    ∃ ps ws, t.pixels = s.pixels ++ ps ∧ t.responses = s.responses ++ ws ∧
      ps.length + ws.length ≤ 1

/-! ### Ports, the host and reset -/

/-- `20_memory.md` R54, R64, `30_encoding.md` R76: where the block can accept a word and the host
offers one, a step is the effect of the command the word decodes to, with the word taken from the
host's actions; a malformed word has the effect of a malformed word. The actions to come as a list
in the state are the model's choice (log entry 1). -/
def Obligations.StepRunsTheDecodedCommand : Prop :=
  ∀ (w : Word32) (rest : List EnvAction) (s : State), s.held = none → s.env = .offer w :: rest →
    (∀ i, decode w = .ok i → step s = exec i { s with env := rest }) ∧
    (∀ e, decode w = .error e → step s = runMalformed w { s with env := rest })

/-- R76, R78: presenting the word of any command, its operands in range or not, has the effect that
the command's meaning gives it. That a command with an operand out of range has a meaning is the
model's (log entry 8). -/
def Obligations.CommandWordRunsAsItsCommand : Prop :=
  ∀ (i : Instr) (s : State), acceptWord (encode i) s = exec i s

/-- R55: where its sink is not ready a command that makes a word offers it and waits: the pixel of
the sample, the register that GET names, or the mapped sample. No register and no trace changes, and
`c_ready` is 0. The waiting word as the command in progress is the model's (log entry 4). -/
def Obligations.OutputWordWaitsForItsSink : Prop :=
  (∀ (imm : Word16) s, s.phase = .busy → s.held = none → s.pReady = false →
    ∃ t, exec (.pix imm) s = .next t ∧ t = { s with held := some (.pixel (s.pixelOf imm)) } ∧
      t.outputPins.pixel = some (s.pixelOf imm) ∧ t.outputPins.response = none ∧
      t.outputPins.cReady = false) ∧
  (∀ (r : BitVec 4) s, r.toNat ≤ 11 → s.held = none → s.rReady = false →
    ∃ t w, exec (.getReg r) s = .next t ∧ t = { s with held := some (.response w) } ∧
      s.readReg r = some w ∧ t.outputPins.response = some w ∧ t.outputPins.pixel = none ∧
      t.outputPins.cReady = false) ∧
  (∀ (c : BitVec 4) (imm lo hi : Word16) s, c.toNat ≤ 2 → s.phase ≠ .faulted → s.held = none →
    s.rReady = false →
    s.readReg (2 * c) = some (lo.zeroExtend 32) → s.readReg (2 * c + 1) = some (hi.zeroExtend 32) →
    ∃ t w, exec (.mapSample c imm) s = .next t ∧ t = { s with held := some (.response w) } ∧
      (w.toNat : Int) = mapValue (s16 imm) (s16 lo) (s16 hi) ∧
      t.outputPins.response = some w ∧ t.outputPins.pixel = none ∧ t.outputPins.cReady = false)

/-- R53, R55, R65: a command that waited and whose sink then becomes ready has the effect it would
have had with the sink ready from the start, and one that waits goes on waiting, its word unchanged,
where a pin is driven that does not make its sink ready: it is as if the pin had been so from the
start. Back-pressure changes no value and no order. One action that drives a pin, with the transfer it
allows, is the model's choice (log entries 1 and 5). -/
def Obligations.WaitingChangesNothing : Prop :=
  ∀ (i : Instr) (s t : State), s.held = none → exec i s = .next t →
    (act (.drivePixelReady true) t = exec i (s.withPReady true) ∧
      act (.driveResponseReady true) t = exec i (s.withRReady true)) ∧
    ∀ b, t.held ≠ none →
      act (.drivePixelReady b) t = exec i (s.withPReady b) ∧
      act (.driveResponseReady b) t = exec i (s.withRReady b)

/-- R53, R55: what a sink does by driving its pin, to 0 or to 1. Where no word is on offer, where the
word's own pin goes to 0, and where the word waits at the other port, whose sink is not ready, only
the pin changes: a word on offer stays as it is until its transfer. Where the pin goes to 1 the word on
offer at its port is transferred and its command retires. The pins as fields of the state (log entry
2), the actions as a list (log entry 1), the waiting word as the command in progress (log entry 4),
and the pin's change with the transfer as one step (log entry 5) are the model's. -/
def Obligations.DrivenPinMovesOnlyTheWordItReleases : Prop :=
  (∀ (b : Bool) (s u : State), s.nextAction = some (.drivePixelReady b, u) →
    u = { s with env := u.env } ∧
    (s.held = none ∨ ((∃ p, s.held = some (.pixel p)) ∧ b = false) ∨
        ((∃ w, s.held = some (.response w)) ∧ s.rReady = false) →
      step s = .next { u with pReady := b })) ∧
  (∀ (p : Pixel) (s u : State), s.nextAction = some (.drivePixelReady true, u) →
    s.held = some (.pixel p) →
    ∃ t, step s = .next t ∧ t.held = none ∧ t.pixels = s.pixels ++ [p] ∧
      t.responses = s.responses ∧ t.pReady = true ∧ t.rReady = s.rReady ∧ t.env = u.env ∧
      (p.eof = true → t.busy = false ∧ t.done = true ∧ t.xpos = 0 ∧ t.ypos = 0) ∧
      (p.eof = false → t.status = s.status) ∧
      (p.eof = false → p.eol = true → t.xpos = 0 ∧ t.ypos = s.ypos + 1) ∧
      (p.eof = false → p.eol = false → t.xpos = s.xpos + 1 ∧ t.ypos = s.ypos) ∧
      t.faulted = s.faulted ∧ statusCause t.status = statusCause s.status ∧
      statusReserved t.status = statusReserved s.status ∧ RegsSameBut [8, 9, 10] s t) ∧
  (∀ (b : Bool) (s u : State), s.nextAction = some (.driveResponseReady b, u) →
    u = { s with env := u.env } ∧
    (s.held = none ∨ ((∃ w, s.held = some (.response w)) ∧ b = false) ∨
        ((∃ p, s.held = some (.pixel p)) ∧ s.pReady = false) →
      step s = .next { u with rReady := b })) ∧
  ∀ (w : Word32) (s u : State), s.nextAction = some (.driveResponseReady true, u) →
    s.held = some (.response w) →
    step s = .next { u with held := none, rReady := true, responses := s.responses ++ [w] }

/-- R54: while a word waits for its sink no command is accepted. Inferred from R53, R54, R161 and
`70_reset_and_hazards.md` R166: other actions go before the words on offer, which stay on offer in
their order (log entry 3), and where nothing else happens the step leaves the block as it is (log
entry 11). The actions to come as a list in the state are the model's choice (log entry 1). -/
def Obligations.WaitingBlockAcceptsNoCommand : Prop :=
  ∀ (o : Output) (s : State), s.held = some o →
    (∀ a u, s.nextAction = some (a, u) →
      a.isOffer = false ∧ u.env.filter EnvAction.isOffer = s.env.filter EnvAction.isOffer) ∧
    ((∀ a ∈ s.env, a.isOffer = true) → step s = .next s)

/-- R161: a reset may come between any two commands or while a command waits, with command words on
offer ahead of it or not: the registers take their reset values, a word not yet transferred is
withdrawn, and the traces and the words still on offer stay as they are. The actions to come as a list
in the state (log entry 1), the pins of the sinks as fields of the state (log entry 2), that a reset
goes before the words on offer while a command waits (log entry 3), and that it leaves pins and
actions (log entry 6) are the model's. -/
def Obligations.ResetMayComeAtAnyTime : Prop :=
  (∀ s u : State, s.nextAction = some (.reset, u) →
    ∃ t, step s = .next t ∧ (∀ r : BitVec 4, r.toNat ≤ 11 → t.readReg r = some 0) ∧
      t.held = none ∧ t.pixels = s.pixels ∧ t.responses = s.responses ∧
      t.pReady = s.pReady ∧ t.rReady = s.rReady ∧ t.env = u.env ∧
      t.env.filter EnvAction.isOffer = s.env.filter EnvAction.isOffer) ∧
  (∀ (rest : List EnvAction) (s : State), s.env = .reset :: rest →
    ∃ u, s.nextAction = some (.reset, u) ∧ u.env = rest) ∧
  ∀ (offers rest : List EnvAction) (s : State), s.held ≠ none →
    (∀ a ∈ offers, a.isOffer = true) → s.env = offers ++ .reset :: rest →
    ∃ u, s.nextAction = some (.reset, u) ∧ u.env = offers ++ rest

/-- `10_state.md` R30, `20_memory.md` R52: the three level outputs are bits of the word that GET of
`STATUS` answers. -/
def Obligations.PinsMirrorStatus : Prop :=
  ∀ (s : State) (w : Word32), s.readReg 8 = some w →
    s.outputPins.busy = w.getLsbD 0 ∧ s.outputPins.done = w.getLsbD 1 ∧
    s.outputPins.fault = w.getLsbD 2

/-! ### The assembler -/

/-- `30_encoding.md` R81: each line with operands in range gives one well-formed word of its command,
and an operand outside its range is refused. -/
def Obligations.AssemblerEmitsTheCommandsWord : Prop :=
  (∃ w, assemble .nop = some [w] ∧ decode w = .ok .nop) ∧
  (∃ w, assemble .begin = some [w] ∧ decode w = .ok .beginFrame) ∧
  (∀ (r : Nat) (i : Int), r ≤ 7 → -32768 ≤ i → i ≤ 65535 →
    ∃ w, assemble (.set r i) = some [w] ∧ decode w = .ok (.setReg (BitVec.ofNat 4 r) (w16 i))) ∧
  (∀ r : Nat, r ≤ 11 →
    ∃ w, assemble (.get r) = some [w] ∧ decode w = .ok (.getReg (BitVec.ofNat 4 r))) ∧
  (∀ (c : Nat) (i : Int), c ≤ 2 → -32768 ≤ i → i ≤ 65535 →
    ∃ w, assemble (.map c i) = some [w] ∧ decode w = .ok (.mapSample (BitVec.ofNat 4 c) (w16 i))) ∧
  (∀ i : Int, -32768 ≤ i → i ≤ 65535 →
    ∃ w, assemble (.pix i) = some [w] ∧ decode w = .ok (.pix (w16 i))) ∧
  (∀ (r : Nat) (i : Int), 7 < r ∨ i < -32768 ∨ 65535 < i → assemble (.set r i) = none) ∧
  (∀ r : Nat, 11 < r → assemble (.get r) = none) ∧
  (∀ (c : Nat) (i : Int), 2 < c ∨ i < -32768 ∨ 65535 < i → assemble (.map c i) = none) ∧
  (∀ i : Int, i < -32768 ∨ 65535 < i → assemble (.pix i) = none)

/-- R82: the expansion of each pseudo-instruction. -/
def Obligations.PseudoInstructionsExpand : Prop :=
  (∀ (c : Nat) (i : Int), c ≤ 2 → assemble (.setlo c i) = assemble (.set (2 * c) i) ∧
    assemble (.sethi c i) = assemble (.set (2 * c + 1) i)) ∧
  (∀ (c : Nat) (lo hi : Int) (a b : List Word32), c ≤ 2 →
    assemble (.set (2 * c) lo) = some a → assemble (.set (2 * c + 1) hi) = some b →
    assemble (.range c lo hi) = some (a ++ b)) ∧
  (∀ (lo hi : Int) (a b d : List Word32), assemble (.range 0 lo hi) = some a →
    assemble (.range 1 lo hi) = some b → assemble (.range 2 lo hi) = some d →
    assemble (.ranges lo hi) = some (a ++ b ++ d)) ∧
  (∀ (w h : Int) (a b : List Word32), 0 ≤ w → w ≤ 65535 → 0 ≤ h → h ≤ 65535 →
    assemble (.set 6 w) = some a → assemble (.set 7 h) = some b →
    assemble (.dim w h) = some (a ++ b)) ∧
  (∀ w h : Int, w < 0 ∨ 65535 < w ∨ h < 0 ∨ 65535 < h → assemble (.dim w h) = none)
end

