-- ==== Sys2Proof/Laws/Config.lean ====
section
/-! SUPPORT. The model's word types have the widths of `00_scope.md` R7. -/

namespace Sys2Proof.Config

theorem word16_width : Word16 = BitVec sw ∧ Word16 = BitVec dw := ⟨rfl, rfl⟩

theorem word32_width : Word32 = BitVec cw ∧ Word32 = BitVec rw := ⟨rfl, rfl⟩

theorem intensity_width : Intensity = BitVec ow ∧ omax = 2 ^ ow - 1 := ⟨rfl, rfl⟩

theorem pixelData_width : PixelData = BitVec (nch * ow) := rfl

/-- The largest product of R96 fits `PW` bits, and no fewer would do. -/
theorem product_width : omax * (2 ^ sw - 1) < 2 ^ pw ∧ 2 ^ (pw - 1) ≤ omax * (2 ^ sw - 1) := by
  decide

end Sys2Proof.Config
end

