-- ==== Sys2Proof/Laws/Decode.lean ====
section
/-! SUPPORT. The fields of a command word and of its parts (`30_encoding.md` R70). -/

namespace Sys2Proof

/-! ### The fields as numbers -/

section
variable (w : Word32)

theorem opField_toNat : (opField w).toNat = w.toNat / 2 ^ 28 := by
  have := w.isLt
  simp only [opField, BitVec.extractLsb'_toNat, Nat.shiftRight_eq_div_pow]
  omega

theorem rField_toNat : (rField w).toNat = w.toNat / 2 ^ 24 % 16 := by
  simp only [rField, BitVec.extractLsb'_toNat, Nat.shiftRight_eq_div_pow]

theorem zField_toNat : (zField w).toNat = w.toNat / 2 ^ 16 % 256 := by
  simp only [zField, BitVec.extractLsb'_toNat, Nat.shiftRight_eq_div_pow]

theorem immField_toNat : (immField w).toNat = w.toNat % 65536 := by
  simp only [immField, BitVec.extractLsb'_toNat, Nat.shiftRight_eq_div_pow]
  omega

end

/-! ### The fields of a command word -/

section
variable (op r : BitVec 4) (imm : Word16)

/-- The number a command word is (R70). -/
theorem commandWord_toNat :
    (commandWord op r imm).toNat = op.toNat * 2 ^ 28 + r.toNat * 2 ^ 24 + imm.toNat := by
  have := op.isLt
  have := r.isLt
  have := imm.isLt
  simp only [commandWord, BitVec.toNat_ofNat]
  omega

@[simp] theorem opField_commandWord : opField (commandWord op r imm) = op := by
  have := r.isLt
  have := imm.isLt
  apply BitVec.eq_of_toNat_eq
  rw [opField_toNat, commandWord_toNat]
  omega

@[simp] theorem rField_commandWord : rField (commandWord op r imm) = r := by
  have := r.isLt
  have := imm.isLt
  apply BitVec.eq_of_toNat_eq
  rw [rField_toNat, commandWord_toNat]
  omega

@[simp] theorem zField_commandWord : zField (commandWord op r imm) = 0 := by
  have := imm.isLt
  apply BitVec.eq_of_toNat_eq
  rw [zField_toNat, commandWord_toNat]
  simp only [BitVec.ofNat_eq_ofNat, BitVec.toNat_ofNat]
  omega

@[simp] theorem immField_commandWord : immField (commandWord op r imm) = imm := by
  have := imm.isLt
  apply BitVec.eq_of_toNat_eq
  rw [immField_toNat, commandWord_toNat]
  omega

end

/-- A word with `z` 0 is the command word of its other three fields. -/
theorem commandWord_fields {w : Word32} (hz : zField w = 0) :
    commandWord (opField w) (rField w) (immField w) = w := by
  have hz' : w.toNat / 2 ^ 16 % 256 = 0 := by rw [← zField_toNat, hz]; rfl
  apply BitVec.eq_of_toNat_eq
  rw [commandWord_toNat, opField_toNat, rField_toNat, immField_toNat]
  omega

/-! ### The masks of R72 as conditions on the fields -/

/-- A masked comparison, bit by bit. -/
theorem and_mask_eq_iff (w mask pattern : Word32) :
    w &&& mask = pattern ↔
      ∀ i, i < 32 → (w.getLsbD i && mask.getLsbD i) = pattern.getLsbD i := by
  constructor
  · rintro rfl i hi
    simp
  · intro h
    ext i hi
    simpa [BitVec.getLsbD_eq_getElem hi] using h i hi

/-- The comparison of a field with a constant, bit by bit. -/
theorem extractLsb'_eq_iff {n : Nat} (w : Word32) (start : Nat) (x : BitVec n) :
    w.extractLsb' start n = x ↔ ∀ i, i < n → w.getLsbD (start + i) = x.getLsbD i := by
  constructor
  · rintro rfl i hi
    simp [hi]
  · intro h
    ext i hi
    simpa [BitVec.getLsbD_eq_getElem hi] using h i hi

theorem mask_set_iff (w : Word32) :
    w &&& 0xF8FF0000 = 0x10000000 ↔ zField w = 0 ∧ opField w = 1 ∧ (rField w).toNat ≤ 7 := by
  have le7 : ∀ r : BitVec 4, r.toNat ≤ 7 ↔ r.getLsbD 3 = false := by decide
  rw [and_mask_eq_iff, le7]
  simp only [zField, opField, rField, extractLsb'_eq_iff, Nat.forall_lt_succ_right,
    BitVec.getLsbD_extractLsb', Nat.not_lt_zero, false_imp_iff, implies_true, true_and,
    BitVec.getLsbD_ofNat, BitVec.ofNat_eq_ofNat]
  simp [Nat.testBit, Nat.shiftRight_eq_div_pow]
  tauto

theorem mask_get_iff (w : Word32) :
    w &&& 0xF0FFFFFF = 0x20000000 ↔ zField w = 0 ∧ opField w = 2 ∧ immField w = 0 := by
  rw [and_mask_eq_iff]
  simp only [zField, opField, immField, extractLsb'_eq_iff, Nat.forall_lt_succ_right,
    Nat.not_lt_zero, false_imp_iff, implies_true, true_and, BitVec.getLsbD_ofNat,
    BitVec.ofNat_eq_ofNat]
  simp [Nat.testBit, Nat.shiftRight_eq_div_pow]
  tauto

theorem mask_map_iff (w : Word32) :
    w &&& 0xF0FF0000 = 0x30000000 ↔ zField w = 0 ∧ opField w = 3 := by
  rw [and_mask_eq_iff]
  simp only [zField, opField, extractLsb'_eq_iff, Nat.forall_lt_succ_right, Nat.not_lt_zero,
    false_imp_iff, implies_true, true_and, BitVec.getLsbD_ofNat, BitVec.ofNat_eq_ofNat]
  simp [Nat.testBit, Nat.shiftRight_eq_div_pow]
  tauto

theorem mask_pix_iff (w : Word32) :
    w &&& 0xFFFF0000 = 0x50000000 ↔ zField w = 0 ∧ opField w = 5 ∧ rField w = 0 := by
  rw [and_mask_eq_iff]
  simp only [zField, opField, rField, extractLsb'_eq_iff, Nat.forall_lt_succ_right,
    Nat.not_lt_zero, false_imp_iff, implies_true, true_and, BitVec.getLsbD_ofNat,
    BitVec.ofNat_eq_ofNat]
  simp [Nat.testBit, Nat.shiftRight_eq_div_pow]
  tauto

/-- What a decoded word is, read off its fields: the decoder's answers, each with its conditions. -/
theorem decode_ok {w : Word32} {i : Instr} (h : decode w = .ok i) :
    zField w = 0 ∧
      ((opField w = 0 ∧ rField w = 0 ∧ immField w = 0 ∧ i = .nop) ∨
        (opField w = 1 ∧ (rField w).toNat ≤ 7 ∧ i = .setReg (rField w) (immField w)) ∨
        (opField w = 2 ∧ (rField w).toNat ≤ 11 ∧ immField w = 0 ∧ i = .getReg (rField w)) ∨
        (opField w = 3 ∧ (rField w).toNat ≤ 2 ∧ i = .mapSample (rField w) (immField w)) ∨
        (opField w = 4 ∧ rField w = 0 ∧ immField w = 0 ∧ i = .beginFrame) ∨
        (opField w = 5 ∧ rField w = 0 ∧ i = .pix (immField w))) := by
  have op_eq : ∀ n : Nat, n < 16 → (opField w).toNat = n → opField w = BitVec.ofNat 4 n := by
    intro n hn h
    apply BitVec.eq_of_toNat_eq
    rw [h, BitVec.toNat_ofNat]
    omega
  simp only [decode] at h
  split at h
  · cases h
  · rename_i hz
    refine ⟨not_not.mp hz, ?_⟩
    split at h <;> rename_i hop
    case _ =>
      split at h; · cases h
      split at h; · cases h
      cases h
      simp_all [op_eq 0 (by omega) hop]
    case _ =>
      split at h
      · cases h
        simp_all [op_eq 1 (by omega) hop]
      · cases h
    case _ =>
      split at h; · cases h
      split at h; · cases h
      cases h
      simp_all [op_eq 2 (by omega) hop]
    case _ =>
      split at h
      · cases h
        simp_all [op_eq 3 (by omega) hop]
      · cases h
    case _ =>
      split at h; · cases h
      split at h; · cases h
      cases h
      simp_all [op_eq 4 (by omega) hop]
    case _ =>
      split at h; · cases h
      cases h
      simp_all [op_eq 5 (by omega) hop]
    case _ => cases h

end Sys2Proof
end

