-- ==== Sys2Proof/Laws/Mapper.lean ====
section
/-! SUPPORT. The signed reading of a word, and the function `map` on each of its paths
(`00_scope.md` R11, `40_mapper.md` R95). -/

namespace Sys2Proof.Machine

/-- `S16` is the two's-complement reading of the library. -/
theorem s16_eq_toInt (w : Word16) : s16 w = w.toInt := by
  have := w.isLt
  simp only [s16, BitVec.toInt]
  split <;> split <;> omega

theorem s16_range (w : Word16) : -32768 ≤ s16 w ∧ s16 w ≤ 32767 := by
  have := w.isLt
  simp only [s16]
  split <;> omega

theorem s16_inj {a b : Word16} : s16 a = s16 b ↔ a = b := by
  rw [s16_eq_toInt, s16_eq_toInt, BitVec.toInt_inj]

section
variable {v lo hi : Int}

theorem mapValue_of_lt (h : v < lo) : mapValue v lo hi = 0 := by simp [mapValue, h]

theorem mapValue_of_gt (h : ¬ v < lo) (h' : v > hi) : mapValue v lo hi = 255 := by
  simp [mapValue, h, h']

theorem mapValue_of_eq (h : ¬ v < lo) (h' : lo = hi) : mapValue v lo hi = 255 := by
  subst h'
  simp [mapValue, h]

theorem mapValue_linear (h : lo ≤ v) (h' : v ≤ hi) (h'' : lo < hi) :
    mapValue v lo hi = 255 * (v - lo) / (hi - lo) := by
  simp [mapValue, show ¬ v < lo by omega, show ¬ v > hi by omega, show lo ≠ hi by omega]

end

end Sys2Proof.Machine
end

