-- ==== Sys2Proof/Laws/State.lean ====
section
/-! SUPPORT. Each field of the state after each named update, so that no proof unfolds a record. -/

namespace Sys2Proof.Machine

variable (s : State)

/-! ### `enterFault` -/

@[simp] theorem State.enterFault_lo0 (k : Cause) (w : Word32) : (s.enterFault k w).lo0 = s.lo0 := rfl
@[simp] theorem State.enterFault_hi0 (k : Cause) (w : Word32) : (s.enterFault k w).hi0 = s.hi0 := rfl
@[simp] theorem State.enterFault_lo1 (k : Cause) (w : Word32) : (s.enterFault k w).lo1 = s.lo1 := rfl
@[simp] theorem State.enterFault_hi1 (k : Cause) (w : Word32) : (s.enterFault k w).hi1 = s.hi1 := rfl
@[simp] theorem State.enterFault_lo2 (k : Cause) (w : Word32) : (s.enterFault k w).lo2 = s.lo2 := rfl
@[simp] theorem State.enterFault_hi2 (k : Cause) (w : Word32) : (s.enterFault k w).hi2 = s.hi2 := rfl
@[simp] theorem State.enterFault_width (k : Cause) (w : Word32) : (s.enterFault k w).width = s.width := rfl
@[simp] theorem State.enterFault_height (k : Cause) (w : Word32) : (s.enterFault k w).height = s.height := rfl
@[simp] theorem State.enterFault_status (k : Cause) (w : Word32) : (s.enterFault k w).status = statusTakeFault k s.status := rfl
@[simp] theorem State.enterFault_xpos (k : Cause) (w : Word32) : (s.enterFault k w).xpos = s.xpos := rfl
@[simp] theorem State.enterFault_ypos (k : Cause) (w : Word32) : (s.enterFault k w).ypos = s.ypos := rfl
@[simp] theorem State.enterFault_fword (k : Cause) (w : Word32) : (s.enterFault k w).fword = w := rfl
@[simp] theorem State.enterFault_held (k : Cause) (w : Word32) : (s.enterFault k w).held = s.held := rfl
@[simp] theorem State.enterFault_pixels (k : Cause) (w : Word32) : (s.enterFault k w).pixels = s.pixels := rfl
@[simp] theorem State.enterFault_responses (k : Cause) (w : Word32) : (s.enterFault k w).responses = s.responses := rfl
@[simp] theorem State.enterFault_pReady (k : Cause) (w : Word32) : (s.enterFault k w).pReady = s.pReady := rfl
@[simp] theorem State.enterFault_rReady (k : Cause) (w : Word32) : (s.enterFault k w).rReady = s.rReady := rfl
@[simp] theorem State.enterFault_env (k : Cause) (w : Word32) : (s.enterFault k w).env = s.env := rfl

/-! ### `openFrame` -/

@[simp] theorem State.openFrame_lo0 : s.openFrame.lo0 = s.lo0 := rfl
@[simp] theorem State.openFrame_hi0 : s.openFrame.hi0 = s.hi0 := rfl
@[simp] theorem State.openFrame_lo1 : s.openFrame.lo1 = s.lo1 := rfl
@[simp] theorem State.openFrame_hi1 : s.openFrame.hi1 = s.hi1 := rfl
@[simp] theorem State.openFrame_lo2 : s.openFrame.lo2 = s.lo2 := rfl
@[simp] theorem State.openFrame_hi2 : s.openFrame.hi2 = s.hi2 := rfl
@[simp] theorem State.openFrame_width : s.openFrame.width = s.width := rfl
@[simp] theorem State.openFrame_height : s.openFrame.height = s.height := rfl
@[simp] theorem State.openFrame_status : s.openFrame.status = statusOpenFrame s.status := rfl
@[simp] theorem State.openFrame_xpos : s.openFrame.xpos = 0 := rfl
@[simp] theorem State.openFrame_ypos : s.openFrame.ypos = 0 := rfl
@[simp] theorem State.openFrame_fword : s.openFrame.fword = s.fword := rfl
@[simp] theorem State.openFrame_held : s.openFrame.held = s.held := rfl
@[simp] theorem State.openFrame_pixels : s.openFrame.pixels = s.pixels := rfl
@[simp] theorem State.openFrame_responses : s.openFrame.responses = s.responses := rfl
@[simp] theorem State.openFrame_pReady : s.openFrame.pReady = s.pReady := rfl
@[simp] theorem State.openFrame_rReady : s.openFrame.rReady = s.rReady := rfl
@[simp] theorem State.openFrame_env : s.openFrame.env = s.env := rfl

/-! ### `closeFrame` -/

@[simp] theorem State.closeFrame_lo0 : s.closeFrame.lo0 = s.lo0 := rfl
@[simp] theorem State.closeFrame_hi0 : s.closeFrame.hi0 = s.hi0 := rfl
@[simp] theorem State.closeFrame_lo1 : s.closeFrame.lo1 = s.lo1 := rfl
@[simp] theorem State.closeFrame_hi1 : s.closeFrame.hi1 = s.hi1 := rfl
@[simp] theorem State.closeFrame_lo2 : s.closeFrame.lo2 = s.lo2 := rfl
@[simp] theorem State.closeFrame_hi2 : s.closeFrame.hi2 = s.hi2 := rfl
@[simp] theorem State.closeFrame_width : s.closeFrame.width = s.width := rfl
@[simp] theorem State.closeFrame_height : s.closeFrame.height = s.height := rfl
@[simp] theorem State.closeFrame_status : s.closeFrame.status = statusCloseFrame s.status := rfl
@[simp] theorem State.closeFrame_xpos : s.closeFrame.xpos = 0 := rfl
@[simp] theorem State.closeFrame_ypos : s.closeFrame.ypos = 0 := rfl
@[simp] theorem State.closeFrame_fword : s.closeFrame.fword = s.fword := rfl
@[simp] theorem State.closeFrame_held : s.closeFrame.held = s.held := rfl
@[simp] theorem State.closeFrame_pixels : s.closeFrame.pixels = s.pixels := rfl
@[simp] theorem State.closeFrame_responses : s.closeFrame.responses = s.responses := rfl
@[simp] theorem State.closeFrame_pReady : s.closeFrame.pReady = s.pReady := rfl
@[simp] theorem State.closeFrame_rReady : s.closeFrame.rReady = s.rReady := rfl
@[simp] theorem State.closeFrame_env : s.closeFrame.env = s.env := rfl

/-! ### `nextRow` -/

@[simp] theorem State.nextRow_lo0 : s.nextRow.lo0 = s.lo0 := rfl
@[simp] theorem State.nextRow_hi0 : s.nextRow.hi0 = s.hi0 := rfl
@[simp] theorem State.nextRow_lo1 : s.nextRow.lo1 = s.lo1 := rfl
@[simp] theorem State.nextRow_hi1 : s.nextRow.hi1 = s.hi1 := rfl
@[simp] theorem State.nextRow_lo2 : s.nextRow.lo2 = s.lo2 := rfl
@[simp] theorem State.nextRow_hi2 : s.nextRow.hi2 = s.hi2 := rfl
@[simp] theorem State.nextRow_width : s.nextRow.width = s.width := rfl
@[simp] theorem State.nextRow_height : s.nextRow.height = s.height := rfl
@[simp] theorem State.nextRow_status : s.nextRow.status = s.status := rfl
@[simp] theorem State.nextRow_xpos : s.nextRow.xpos = 0 := rfl
@[simp] theorem State.nextRow_ypos : s.nextRow.ypos = s.ypos + 1 := rfl
@[simp] theorem State.nextRow_fword : s.nextRow.fword = s.fword := rfl
@[simp] theorem State.nextRow_held : s.nextRow.held = s.held := rfl
@[simp] theorem State.nextRow_pixels : s.nextRow.pixels = s.pixels := rfl
@[simp] theorem State.nextRow_responses : s.nextRow.responses = s.responses := rfl
@[simp] theorem State.nextRow_pReady : s.nextRow.pReady = s.pReady := rfl
@[simp] theorem State.nextRow_rReady : s.nextRow.rReady = s.rReady := rfl
@[simp] theorem State.nextRow_env : s.nextRow.env = s.env := rfl

/-! ### `nextColumn` -/

@[simp] theorem State.nextColumn_lo0 : s.nextColumn.lo0 = s.lo0 := rfl
@[simp] theorem State.nextColumn_hi0 : s.nextColumn.hi0 = s.hi0 := rfl
@[simp] theorem State.nextColumn_lo1 : s.nextColumn.lo1 = s.lo1 := rfl
@[simp] theorem State.nextColumn_hi1 : s.nextColumn.hi1 = s.hi1 := rfl
@[simp] theorem State.nextColumn_lo2 : s.nextColumn.lo2 = s.lo2 := rfl
@[simp] theorem State.nextColumn_hi2 : s.nextColumn.hi2 = s.hi2 := rfl
@[simp] theorem State.nextColumn_width : s.nextColumn.width = s.width := rfl
@[simp] theorem State.nextColumn_height : s.nextColumn.height = s.height := rfl
@[simp] theorem State.nextColumn_status : s.nextColumn.status = s.status := rfl
@[simp] theorem State.nextColumn_xpos : s.nextColumn.xpos = s.xpos + 1 := rfl
@[simp] theorem State.nextColumn_ypos : s.nextColumn.ypos = s.ypos := rfl
@[simp] theorem State.nextColumn_fword : s.nextColumn.fword = s.fword := rfl
@[simp] theorem State.nextColumn_held : s.nextColumn.held = s.held := rfl
@[simp] theorem State.nextColumn_pixels : s.nextColumn.pixels = s.pixels := rfl
@[simp] theorem State.nextColumn_responses : s.nextColumn.responses = s.responses := rfl
@[simp] theorem State.nextColumn_pReady : s.nextColumn.pReady = s.pReady := rfl
@[simp] theorem State.nextColumn_rReady : s.nextColumn.rReady = s.rReady := rfl
@[simp] theorem State.nextColumn_env : s.nextColumn.env = s.env := rfl

/-! ### `appendPixel` -/

@[simp] theorem State.appendPixel_lo0 (p : Pixel) : (s.appendPixel p).lo0 = s.lo0 := rfl
@[simp] theorem State.appendPixel_hi0 (p : Pixel) : (s.appendPixel p).hi0 = s.hi0 := rfl
@[simp] theorem State.appendPixel_lo1 (p : Pixel) : (s.appendPixel p).lo1 = s.lo1 := rfl
@[simp] theorem State.appendPixel_hi1 (p : Pixel) : (s.appendPixel p).hi1 = s.hi1 := rfl
@[simp] theorem State.appendPixel_lo2 (p : Pixel) : (s.appendPixel p).lo2 = s.lo2 := rfl
@[simp] theorem State.appendPixel_hi2 (p : Pixel) : (s.appendPixel p).hi2 = s.hi2 := rfl
@[simp] theorem State.appendPixel_width (p : Pixel) : (s.appendPixel p).width = s.width := rfl
@[simp] theorem State.appendPixel_height (p : Pixel) : (s.appendPixel p).height = s.height := rfl
@[simp] theorem State.appendPixel_status (p : Pixel) : (s.appendPixel p).status = s.status := rfl
@[simp] theorem State.appendPixel_xpos (p : Pixel) : (s.appendPixel p).xpos = s.xpos := rfl
@[simp] theorem State.appendPixel_ypos (p : Pixel) : (s.appendPixel p).ypos = s.ypos := rfl
@[simp] theorem State.appendPixel_fword (p : Pixel) : (s.appendPixel p).fword = s.fword := rfl
@[simp] theorem State.appendPixel_held (p : Pixel) : (s.appendPixel p).held = s.held := rfl
@[simp] theorem State.appendPixel_pixels (p : Pixel) : (s.appendPixel p).pixels = s.pixels ++ [p] := rfl
@[simp] theorem State.appendPixel_responses (p : Pixel) : (s.appendPixel p).responses = s.responses := rfl
@[simp] theorem State.appendPixel_pReady (p : Pixel) : (s.appendPixel p).pReady = s.pReady := rfl
@[simp] theorem State.appendPixel_rReady (p : Pixel) : (s.appendPixel p).rReady = s.rReady := rfl
@[simp] theorem State.appendPixel_env (p : Pixel) : (s.appendPixel p).env = s.env := rfl

/-! ### `appendResponse` -/

@[simp] theorem State.appendResponse_lo0 (w : Word32) : (s.appendResponse w).lo0 = s.lo0 := rfl
@[simp] theorem State.appendResponse_hi0 (w : Word32) : (s.appendResponse w).hi0 = s.hi0 := rfl
@[simp] theorem State.appendResponse_lo1 (w : Word32) : (s.appendResponse w).lo1 = s.lo1 := rfl
@[simp] theorem State.appendResponse_hi1 (w : Word32) : (s.appendResponse w).hi1 = s.hi1 := rfl
@[simp] theorem State.appendResponse_lo2 (w : Word32) : (s.appendResponse w).lo2 = s.lo2 := rfl
@[simp] theorem State.appendResponse_hi2 (w : Word32) : (s.appendResponse w).hi2 = s.hi2 := rfl
@[simp] theorem State.appendResponse_width (w : Word32) : (s.appendResponse w).width = s.width := rfl
@[simp] theorem State.appendResponse_height (w : Word32) : (s.appendResponse w).height = s.height := rfl
@[simp] theorem State.appendResponse_status (w : Word32) : (s.appendResponse w).status = s.status := rfl
@[simp] theorem State.appendResponse_xpos (w : Word32) : (s.appendResponse w).xpos = s.xpos := rfl
@[simp] theorem State.appendResponse_ypos (w : Word32) : (s.appendResponse w).ypos = s.ypos := rfl
@[simp] theorem State.appendResponse_fword (w : Word32) : (s.appendResponse w).fword = s.fword := rfl
@[simp] theorem State.appendResponse_held (w : Word32) : (s.appendResponse w).held = s.held := rfl
@[simp] theorem State.appendResponse_pixels (w : Word32) : (s.appendResponse w).pixels = s.pixels := rfl
@[simp] theorem State.appendResponse_responses (w : Word32) : (s.appendResponse w).responses = s.responses ++ [w] := rfl
@[simp] theorem State.appendResponse_pReady (w : Word32) : (s.appendResponse w).pReady = s.pReady := rfl
@[simp] theorem State.appendResponse_rReady (w : Word32) : (s.appendResponse w).rReady = s.rReady := rfl
@[simp] theorem State.appendResponse_env (w : Word32) : (s.appendResponse w).env = s.env := rfl

/-! ### `hold` -/

@[simp] theorem State.hold_lo0 (o : Output) : (s.hold o).lo0 = s.lo0 := rfl
@[simp] theorem State.hold_hi0 (o : Output) : (s.hold o).hi0 = s.hi0 := rfl
@[simp] theorem State.hold_lo1 (o : Output) : (s.hold o).lo1 = s.lo1 := rfl
@[simp] theorem State.hold_hi1 (o : Output) : (s.hold o).hi1 = s.hi1 := rfl
@[simp] theorem State.hold_lo2 (o : Output) : (s.hold o).lo2 = s.lo2 := rfl
@[simp] theorem State.hold_hi2 (o : Output) : (s.hold o).hi2 = s.hi2 := rfl
@[simp] theorem State.hold_width (o : Output) : (s.hold o).width = s.width := rfl
@[simp] theorem State.hold_height (o : Output) : (s.hold o).height = s.height := rfl
@[simp] theorem State.hold_status (o : Output) : (s.hold o).status = s.status := rfl
@[simp] theorem State.hold_xpos (o : Output) : (s.hold o).xpos = s.xpos := rfl
@[simp] theorem State.hold_ypos (o : Output) : (s.hold o).ypos = s.ypos := rfl
@[simp] theorem State.hold_fword (o : Output) : (s.hold o).fword = s.fword := rfl
@[simp] theorem State.hold_held (o : Output) : (s.hold o).held = some o := rfl
@[simp] theorem State.hold_pixels (o : Output) : (s.hold o).pixels = s.pixels := rfl
@[simp] theorem State.hold_responses (o : Output) : (s.hold o).responses = s.responses := rfl
@[simp] theorem State.hold_pReady (o : Output) : (s.hold o).pReady = s.pReady := rfl
@[simp] theorem State.hold_rReady (o : Output) : (s.hold o).rReady = s.rReady := rfl
@[simp] theorem State.hold_env (o : Output) : (s.hold o).env = s.env := rfl

/-! ### `release` -/

@[simp] theorem State.release_lo0 : s.release.lo0 = s.lo0 := rfl
@[simp] theorem State.release_hi0 : s.release.hi0 = s.hi0 := rfl
@[simp] theorem State.release_lo1 : s.release.lo1 = s.lo1 := rfl
@[simp] theorem State.release_hi1 : s.release.hi1 = s.hi1 := rfl
@[simp] theorem State.release_lo2 : s.release.lo2 = s.lo2 := rfl
@[simp] theorem State.release_hi2 : s.release.hi2 = s.hi2 := rfl
@[simp] theorem State.release_width : s.release.width = s.width := rfl
@[simp] theorem State.release_height : s.release.height = s.height := rfl
@[simp] theorem State.release_status : s.release.status = s.status := rfl
@[simp] theorem State.release_xpos : s.release.xpos = s.xpos := rfl
@[simp] theorem State.release_ypos : s.release.ypos = s.ypos := rfl
@[simp] theorem State.release_fword : s.release.fword = s.fword := rfl
@[simp] theorem State.release_held : s.release.held = none := rfl
@[simp] theorem State.release_pixels : s.release.pixels = s.pixels := rfl
@[simp] theorem State.release_responses : s.release.responses = s.responses := rfl
@[simp] theorem State.release_pReady : s.release.pReady = s.pReady := rfl
@[simp] theorem State.release_rReady : s.release.rReady = s.rReady := rfl
@[simp] theorem State.release_env : s.release.env = s.env := rfl

/-! ### `withPReady` -/

@[simp] theorem State.withPReady_lo0 (b : Bool) : (s.withPReady b).lo0 = s.lo0 := rfl
@[simp] theorem State.withPReady_hi0 (b : Bool) : (s.withPReady b).hi0 = s.hi0 := rfl
@[simp] theorem State.withPReady_lo1 (b : Bool) : (s.withPReady b).lo1 = s.lo1 := rfl
@[simp] theorem State.withPReady_hi1 (b : Bool) : (s.withPReady b).hi1 = s.hi1 := rfl
@[simp] theorem State.withPReady_lo2 (b : Bool) : (s.withPReady b).lo2 = s.lo2 := rfl
@[simp] theorem State.withPReady_hi2 (b : Bool) : (s.withPReady b).hi2 = s.hi2 := rfl
@[simp] theorem State.withPReady_width (b : Bool) : (s.withPReady b).width = s.width := rfl
@[simp] theorem State.withPReady_height (b : Bool) : (s.withPReady b).height = s.height := rfl
@[simp] theorem State.withPReady_status (b : Bool) : (s.withPReady b).status = s.status := rfl
@[simp] theorem State.withPReady_xpos (b : Bool) : (s.withPReady b).xpos = s.xpos := rfl
@[simp] theorem State.withPReady_ypos (b : Bool) : (s.withPReady b).ypos = s.ypos := rfl
@[simp] theorem State.withPReady_fword (b : Bool) : (s.withPReady b).fword = s.fword := rfl
@[simp] theorem State.withPReady_held (b : Bool) : (s.withPReady b).held = s.held := rfl
@[simp] theorem State.withPReady_pixels (b : Bool) : (s.withPReady b).pixels = s.pixels := rfl
@[simp] theorem State.withPReady_responses (b : Bool) : (s.withPReady b).responses = s.responses := rfl
@[simp] theorem State.withPReady_pReady (b : Bool) : (s.withPReady b).pReady = b := rfl
@[simp] theorem State.withPReady_rReady (b : Bool) : (s.withPReady b).rReady = s.rReady := rfl
@[simp] theorem State.withPReady_env (b : Bool) : (s.withPReady b).env = s.env := rfl

/-! ### `withRReady` -/

@[simp] theorem State.withRReady_lo0 (b : Bool) : (s.withRReady b).lo0 = s.lo0 := rfl
@[simp] theorem State.withRReady_hi0 (b : Bool) : (s.withRReady b).hi0 = s.hi0 := rfl
@[simp] theorem State.withRReady_lo1 (b : Bool) : (s.withRReady b).lo1 = s.lo1 := rfl
@[simp] theorem State.withRReady_hi1 (b : Bool) : (s.withRReady b).hi1 = s.hi1 := rfl
@[simp] theorem State.withRReady_lo2 (b : Bool) : (s.withRReady b).lo2 = s.lo2 := rfl
@[simp] theorem State.withRReady_hi2 (b : Bool) : (s.withRReady b).hi2 = s.hi2 := rfl
@[simp] theorem State.withRReady_width (b : Bool) : (s.withRReady b).width = s.width := rfl
@[simp] theorem State.withRReady_height (b : Bool) : (s.withRReady b).height = s.height := rfl
@[simp] theorem State.withRReady_status (b : Bool) : (s.withRReady b).status = s.status := rfl
@[simp] theorem State.withRReady_xpos (b : Bool) : (s.withRReady b).xpos = s.xpos := rfl
@[simp] theorem State.withRReady_ypos (b : Bool) : (s.withRReady b).ypos = s.ypos := rfl
@[simp] theorem State.withRReady_fword (b : Bool) : (s.withRReady b).fword = s.fword := rfl
@[simp] theorem State.withRReady_held (b : Bool) : (s.withRReady b).held = s.held := rfl
@[simp] theorem State.withRReady_pixels (b : Bool) : (s.withRReady b).pixels = s.pixels := rfl
@[simp] theorem State.withRReady_responses (b : Bool) : (s.withRReady b).responses = s.responses := rfl
@[simp] theorem State.withRReady_pReady (b : Bool) : (s.withRReady b).pReady = s.pReady := rfl
@[simp] theorem State.withRReady_rReady (b : Bool) : (s.withRReady b).rReady = b := rfl
@[simp] theorem State.withRReady_env (b : Bool) : (s.withRReady b).env = s.env := rfl

/-! ### `withEnv` -/

@[simp] theorem State.withEnv_lo0 (l : List EnvAction) : (s.withEnv l).lo0 = s.lo0 := rfl
@[simp] theorem State.withEnv_hi0 (l : List EnvAction) : (s.withEnv l).hi0 = s.hi0 := rfl
@[simp] theorem State.withEnv_lo1 (l : List EnvAction) : (s.withEnv l).lo1 = s.lo1 := rfl
@[simp] theorem State.withEnv_hi1 (l : List EnvAction) : (s.withEnv l).hi1 = s.hi1 := rfl
@[simp] theorem State.withEnv_lo2 (l : List EnvAction) : (s.withEnv l).lo2 = s.lo2 := rfl
@[simp] theorem State.withEnv_hi2 (l : List EnvAction) : (s.withEnv l).hi2 = s.hi2 := rfl
@[simp] theorem State.withEnv_width (l : List EnvAction) : (s.withEnv l).width = s.width := rfl
@[simp] theorem State.withEnv_height (l : List EnvAction) : (s.withEnv l).height = s.height := rfl
@[simp] theorem State.withEnv_status (l : List EnvAction) : (s.withEnv l).status = s.status := rfl
@[simp] theorem State.withEnv_xpos (l : List EnvAction) : (s.withEnv l).xpos = s.xpos := rfl
@[simp] theorem State.withEnv_ypos (l : List EnvAction) : (s.withEnv l).ypos = s.ypos := rfl
@[simp] theorem State.withEnv_fword (l : List EnvAction) : (s.withEnv l).fword = s.fword := rfl
@[simp] theorem State.withEnv_held (l : List EnvAction) : (s.withEnv l).held = s.held := rfl
@[simp] theorem State.withEnv_pixels (l : List EnvAction) : (s.withEnv l).pixels = s.pixels := rfl
@[simp] theorem State.withEnv_responses (l : List EnvAction) : (s.withEnv l).responses = s.responses := rfl
@[simp] theorem State.withEnv_pReady (l : List EnvAction) : (s.withEnv l).pReady = s.pReady := rfl
@[simp] theorem State.withEnv_rReady (l : List EnvAction) : (s.withEnv l).rReady = s.rReady := rfl
@[simp] theorem State.withEnv_env (l : List EnvAction) : (s.withEnv l).env = l := rfl

/-! ### `resetBlock` -/

@[simp] theorem State.resetBlock_lo0 : s.resetBlock.lo0 = 0 := rfl
@[simp] theorem State.resetBlock_hi0 : s.resetBlock.hi0 = 0 := rfl
@[simp] theorem State.resetBlock_lo1 : s.resetBlock.lo1 = 0 := rfl
@[simp] theorem State.resetBlock_hi1 : s.resetBlock.hi1 = 0 := rfl
@[simp] theorem State.resetBlock_lo2 : s.resetBlock.lo2 = 0 := rfl
@[simp] theorem State.resetBlock_hi2 : s.resetBlock.hi2 = 0 := rfl
@[simp] theorem State.resetBlock_width : s.resetBlock.width = 0 := rfl
@[simp] theorem State.resetBlock_height : s.resetBlock.height = 0 := rfl
@[simp] theorem State.resetBlock_status : s.resetBlock.status = 0 := rfl
@[simp] theorem State.resetBlock_xpos : s.resetBlock.xpos = 0 := rfl
@[simp] theorem State.resetBlock_ypos : s.resetBlock.ypos = 0 := rfl
@[simp] theorem State.resetBlock_fword : s.resetBlock.fword = 0 := rfl
@[simp] theorem State.resetBlock_held : s.resetBlock.held = none := rfl
@[simp] theorem State.resetBlock_pixels : s.resetBlock.pixels = s.pixels := rfl
@[simp] theorem State.resetBlock_responses : s.resetBlock.responses = s.responses := rfl
@[simp] theorem State.resetBlock_pReady : s.resetBlock.pReady = s.pReady := rfl
@[simp] theorem State.resetBlock_rReady : s.resetBlock.rReady = s.rReady := rfl
@[simp] theorem State.resetBlock_env : s.resetBlock.env = s.env := rfl

end Sys2Proof.Machine
end

