-- ==== Sys2Proof/Laws/Status.lean ====
section
/-! SUPPORT. Each field of `STATUS` after each of the three ways the hardware writes it, and the phase
in terms of the flags (`10_state.md` R28, R29). -/

namespace Sys2Proof.Machine

section
variable (st : Word16) (k : Cause)

@[simp] theorem statusBusy_openFrame : statusBusy (statusOpenFrame st) = true := by
  simp [statusBusy, statusOpenFrame]

@[simp] theorem statusDone_openFrame : statusDone (statusOpenFrame st) = false := by
  simp [statusDone, statusOpenFrame]

@[simp] theorem statusFault_openFrame : statusFault (statusOpenFrame st) = statusFault st := by
  simp [statusFault, statusOpenFrame]

@[simp] theorem statusCause_openFrame : statusCause (statusOpenFrame st) = statusCause st := by
  ext i hi
  simp only [statusCause, statusOpenFrame]
  interval_cases i <;> simp

@[simp] theorem statusReserved_openFrame :
    statusReserved (statusOpenFrame st) = statusReserved st := by
  ext i hi
  simp only [statusReserved, statusOpenFrame]
  interval_cases i <;> simp

@[simp] theorem statusBusy_closeFrame : statusBusy (statusCloseFrame st) = false := by
  simp [statusBusy, statusCloseFrame]

@[simp] theorem statusDone_closeFrame : statusDone (statusCloseFrame st) = true := by
  simp [statusDone, statusCloseFrame]

@[simp] theorem statusFault_closeFrame : statusFault (statusCloseFrame st) = statusFault st := by
  simp [statusFault, statusCloseFrame]

@[simp] theorem statusCause_closeFrame : statusCause (statusCloseFrame st) = statusCause st := by
  ext i hi
  simp only [statusCause, statusCloseFrame]
  interval_cases i <;> simp

@[simp] theorem statusReserved_closeFrame :
    statusReserved (statusCloseFrame st) = statusReserved st := by
  ext i hi
  simp only [statusReserved, statusCloseFrame]
  interval_cases i <;> simp

@[simp] theorem statusBusy_takeFault : statusBusy (statusTakeFault k st) = statusBusy st := by
  cases k <;> simp [statusBusy, statusTakeFault, causeCode]

@[simp] theorem statusDone_takeFault : statusDone (statusTakeFault k st) = statusDone st := by
  cases k <;> simp [statusDone, statusTakeFault, causeCode]

@[simp] theorem statusFault_takeFault : statusFault (statusTakeFault k st) = true := by
  cases k <;> simp [statusFault, statusTakeFault, causeCode]

@[simp] theorem statusCause_takeFault : statusCause (statusTakeFault k st) = causeCode k := by
  ext i hi
  simp only [statusCause, statusTakeFault]
  cases k <;> interval_cases i <;> simp [causeCode]

@[simp] theorem statusReserved_takeFault :
    statusReserved (statusTakeFault k st) = statusReserved st := by
  ext i hi
  simp only [statusReserved, statusTakeFault]
  cases k <;> interval_cases i <;> simp [causeCode]

end

section
variable (s : State)

theorem State.phase_idle_iff : s.phase = .idle ↔ s.faulted = false ∧ s.busy = false := by
  simp only [State.phase, State.faulted, State.busy, statusPhase]
  cases statusFault s.status <;> cases statusBusy s.status <;> simp

theorem State.phase_busy_iff : s.phase = .busy ↔ s.faulted = false ∧ s.busy = true := by
  simp only [State.phase, State.faulted, State.busy, statusPhase]
  cases statusFault s.status <;> cases statusBusy s.status <;> simp

theorem State.phase_faulted_iff : s.phase = .faulted ↔ s.faulted = true := by
  simp only [State.phase, State.faulted, statusPhase]
  cases statusFault s.status <;> cases statusBusy s.status <;> simp

end

/-! ### The flags after each named update -/

section
variable (s : State) (k : Cause) (w : Word32) (p : Pixel) (o : Output) (b : Bool)
  (l : List EnvAction)

@[simp] theorem State.enterFault_busy : (s.enterFault k w).busy = s.busy := statusBusy_takeFault _ k
@[simp] theorem State.enterFault_done : (s.enterFault k w).done = s.done := statusDone_takeFault _ k
@[simp] theorem State.enterFault_faulted : (s.enterFault k w).faulted = true :=
  statusFault_takeFault _ k
@[simp] theorem State.openFrame_busy : s.openFrame.busy = true := statusBusy_openFrame _
@[simp] theorem State.openFrame_done : s.openFrame.done = false := statusDone_openFrame _
@[simp] theorem State.openFrame_faulted : s.openFrame.faulted = s.faulted := statusFault_openFrame _
@[simp] theorem State.closeFrame_busy : s.closeFrame.busy = false := statusBusy_closeFrame _
@[simp] theorem State.closeFrame_done : s.closeFrame.done = true := statusDone_closeFrame _
@[simp] theorem State.closeFrame_faulted : s.closeFrame.faulted = s.faulted :=
  statusFault_closeFrame _
@[simp] theorem State.resetBlock_busy : s.resetBlock.busy = false := by
  simp [State.busy, statusBusy]
@[simp] theorem State.resetBlock_done : s.resetBlock.done = false := by
  simp [State.done, statusDone]
@[simp] theorem State.resetBlock_faulted : s.resetBlock.faulted = false := by
  simp [State.faulted, statusFault]

/-- The flags depend on `STATUS` alone. -/
theorem State.flags_of_status {s t : State} (h : t.status = s.status) :
    t.busy = s.busy ∧ t.done = s.done ∧ t.faulted = s.faulted := by
  simp [State.busy, State.done, State.faulted, h]

@[simp] theorem State.nextRow_busy : s.nextRow.busy = s.busy := rfl
@[simp] theorem State.nextRow_done : s.nextRow.done = s.done := rfl
@[simp] theorem State.nextRow_faulted : s.nextRow.faulted = s.faulted := rfl
@[simp] theorem State.nextColumn_busy : s.nextColumn.busy = s.busy := rfl
@[simp] theorem State.nextColumn_done : s.nextColumn.done = s.done := rfl
@[simp] theorem State.nextColumn_faulted : s.nextColumn.faulted = s.faulted := rfl
@[simp] theorem State.appendPixel_busy : (s.appendPixel p).busy = s.busy := rfl
@[simp] theorem State.appendPixel_done : (s.appendPixel p).done = s.done := rfl
@[simp] theorem State.appendPixel_faulted : (s.appendPixel p).faulted = s.faulted := rfl
@[simp] theorem State.appendResponse_busy : (s.appendResponse w).busy = s.busy := rfl
@[simp] theorem State.appendResponse_done : (s.appendResponse w).done = s.done := rfl
@[simp] theorem State.appendResponse_faulted : (s.appendResponse w).faulted = s.faulted := rfl
@[simp] theorem State.hold_busy : (s.hold o).busy = s.busy := rfl
@[simp] theorem State.hold_done : (s.hold o).done = s.done := rfl
@[simp] theorem State.hold_faulted : (s.hold o).faulted = s.faulted := rfl
@[simp] theorem State.release_busy : s.release.busy = s.busy := rfl
@[simp] theorem State.release_done : s.release.done = s.done := rfl
@[simp] theorem State.release_faulted : s.release.faulted = s.faulted := rfl
@[simp] theorem State.withPReady_busy : (s.withPReady b).busy = s.busy := rfl
@[simp] theorem State.withPReady_done : (s.withPReady b).done = s.done := rfl
@[simp] theorem State.withPReady_faulted : (s.withPReady b).faulted = s.faulted := rfl
@[simp] theorem State.withRReady_busy : (s.withRReady b).busy = s.busy := rfl
@[simp] theorem State.withRReady_done : (s.withRReady b).done = s.done := rfl
@[simp] theorem State.withRReady_faulted : (s.withRReady b).faulted = s.faulted := rfl
@[simp] theorem State.withEnv_busy : (s.withEnv l).busy = s.busy := rfl
@[simp] theorem State.withEnv_done : (s.withEnv l).done = s.done := rfl
@[simp] theorem State.withEnv_faulted : (s.withEnv l).faulted = s.faulted := rfl

end

end Sys2Proof.Machine
end

