-- ==== Sys2Proof/Laws/Ops.lean ====
section
/-! SUPPORT. The shared operations: once for each, everything it can do. -/

namespace Sys2Proof.Machine

variable (s : State)

/-! ### Discarding in phase FAULTED -/

theorem unlessFaulted_of_faulted {s : State} (h : s.faulted = true) (run : StepResult) :
    unlessFaulted s run = .next s := by simp [unlessFaulted, h]

theorem unlessFaulted_of_not_faulted {s : State} (h : s.faulted = false) (run : StepResult) :
    unlessFaulted s run = run := by simp [unlessFaulted, h]

/-! ### The register file -/

/-- A register SET may name holds the value written (`42_config_access.md` R126). -/
theorem State.writeReg_readReg_self {r : BitVec 4} {v : Word16} {t : State}
    (h : s.writeReg r v = some t) : t.readReg r = some (v.zeroExtend 32) := by
  simp only [State.writeReg] at h
  split at h <;> simp_all <;> subst h <;> simp [State.readReg, *]

/-- No other register is written (R126). -/
theorem State.writeReg_readReg_other {r r' : BitVec 4} {v : Word16} {t : State}
    (h : s.writeReg r v = some t) (hr : r'.toNat ≠ r.toNat) : t.readReg r' = s.readReg r' := by
  simp only [State.writeReg] at h
  split at h <;> simp_all <;> subst h <;> simp only [State.readReg] <;> split <;> simp_all

/-- What writing a register leaves alone beside the registers. -/
theorem State.writeReg_frame {r : BitVec 4} {v : Word16} {t : State}
    (h : s.writeReg r v = some t) :
    t.status = s.status ∧ t.xpos = s.xpos ∧ t.ypos = s.ypos ∧ t.fword = s.fword ∧
      t.held = s.held ∧ t.pixels = s.pixels ∧ t.responses = s.responses ∧
      t.pReady = s.pReady ∧ t.rReady = s.rReady ∧ t.env = s.env := by
  simp only [State.writeReg] at h
  split at h <;> simp_all <;> subst h <;> simp

/-- SET may name the numbers 0 to 7 (`10_state.md` R26, R27). -/
theorem State.writeReg_isSome_iff (r : BitVec 4) (v : Word16) :
    (s.writeReg r v).isSome = true ↔ r.toNat ≤ 7 := by
  simp only [State.writeReg]
  split <;> simp_all
  have := r.isLt
  omega

/-- GET may name the numbers 0 to 11 (R26). -/
theorem State.readReg_isSome_iff (r : BitVec 4) : (s.readReg r).isSome = true ↔ r.toNat ≤ 11 := by
  simp only [State.readReg]
  split <;> simp_all
  have := r.isLt
  omega

/-- MAP may name the channels 0 to 2 (`30_encoding.md` R71). -/
theorem State.channelRange_isSome_iff (c : BitVec 4) :
    (s.channelRange c).isSome = true ↔ c.toNat ≤ 2 := by
  simp only [State.channelRange]
  split <;> simp_all
  have := c.isLt
  omega

/-- The registers read alike where their contents are alike. -/
theorem RegsSame.of_fields {s t : State}
    (h : t.lo0 = s.lo0 ∧ t.hi0 = s.hi0 ∧ t.lo1 = s.lo1 ∧ t.hi1 = s.hi1 ∧ t.lo2 = s.lo2 ∧
      t.hi2 = s.hi2 ∧ t.width = s.width ∧ t.height = s.height ∧ t.status = s.status ∧
      t.xpos = s.xpos ∧ t.ypos = s.ypos ∧ t.fword = s.fword) : RegsSame s t := by
  intro r _
  simp [State.readReg, h]

/-- The registers but the four the hardware writes read alike where their contents are alike. -/
theorem RegsSameBut.of_config {s t : State} {l : List Nat}
    (h : t.lo0 = s.lo0 ∧ t.hi0 = s.hi0 ∧ t.lo1 = s.lo1 ∧ t.hi1 = s.hi1 ∧ t.lo2 = s.lo2 ∧
      t.hi2 = s.hi2 ∧ t.width = s.width ∧ t.height = s.height)
    (h8 : 8 ∈ l ∨ t.status = s.status) (h9 : 9 ∈ l ∨ t.xpos = s.xpos)
    (h10 : 10 ∈ l ∨ t.ypos = s.ypos) (h11 : 11 ∈ l ∨ t.fword = s.fword) :
    RegsSameBut l s t := by
  intro r hr
  simp only [State.readReg, h]
  split <;> simp_all

/-! ### What BEGIN checks -/

theorem State.emptyGrid_iff : s.emptyGrid = true ↔ s.width = 0#16 ∨ s.height = 0#16 := by
  simp [State.emptyGrid]

theorem State.anyReversed_iff :
    s.anyReversed = true ↔
      s16 s.hi0 < s16 s.lo0 ∨ s16 s.hi1 < s16 s.lo1 ∨ s16 s.hi2 < s16 s.lo2 := by
  simp [State.anyReversed, ChannelRange.reversed, or_assoc]

/-! ### Fault entry -/

/-- Fault entry does what `60_exceptions.md` R140 says, from any state. -/
theorem FaultTaken.enterFault (k : Cause) (w : Word32) : FaultTaken k w s (s.enterFault k w) := by
  refine ⟨by simp, by simp, by simp, by simp, by simp, by simp, ?_, by simp [NoOutput],
    by simp [SameWorld]⟩
  exact RegsSameBut.of_config (by simp) (by simp) (by simp) (by simp) (by simp)

/-! ### Offering an output word -/

theorem State.emit_of_ready {s : State} {o : Output} (h : s.sinkReady o = true) :
    s.emit o = s.transfer o := by simp [State.emit, h]

theorem State.emit_of_not_ready {s : State} {o : Output} (h : s.sinkReady o = false) :
    s.emit o = s.hold o := by simp [State.emit, h]

/-- `RespOut` with the sink ready, as one record. -/
theorem State.emit_response_of_ready {s : State} (w : Word32) (h : s.rReady = true) :
    s.emit (.response w) = { s with responses := s.responses ++ [w] } :=
  State.emit_of_ready (o := .response w) h

/-- `RespOut` with the sink not ready, as one record. -/
theorem State.emit_response_of_not_ready {s : State} (w : Word32) (h : s.rReady = false) :
    s.emit (.response w) = { s with held := some (.response w) } :=
  State.emit_of_not_ready (o := .response w) h

/-- `PixOut` with the sink ready. -/
theorem State.emit_pixel_of_ready {s : State} (p : Pixel) (h : s.pReady = true) :
    s.emit (.pixel p) = (s.appendPixel p).advance p.eol p.eof :=
  State.emit_of_ready (o := .pixel p) h

/-- `PixOut` with the sink not ready, as one record. -/
theorem State.emit_pixel_of_not_ready {s : State} (p : Pixel) (h : s.pReady = false) :
    s.emit (.pixel p) = { s with held := some (.pixel p) } :=
  State.emit_of_not_ready (o := .pixel p) h

/-- What a change of a sink's pin can do: nothing more, or the transfer of the word on offer. -/
theorem State.settle_cases :
    (s.settle = s ∧ ∀ o, s.held = some o → s.sinkReady o = false) ∨
      ∃ o, s.held = some o ∧ s.sinkReady o = true ∧ s.settle = s.release.transfer o := by
  simp only [State.settle]
  split
  · simp_all
  · rename_i o h
    cases hr : s.sinkReady o <;> simp_all

/-! ### What `advance` leaves alone -/

@[simp] theorem State.advance_lo0 (eol eof : Bool) : (s.advance eol eof).lo0 = s.lo0 := by
  simp only [State.advance]; split <;> [rfl; (split <;> rfl)]

@[simp] theorem State.advance_hi0 (eol eof : Bool) : (s.advance eol eof).hi0 = s.hi0 := by
  simp only [State.advance]; split <;> [rfl; (split <;> rfl)]

@[simp] theorem State.advance_lo1 (eol eof : Bool) : (s.advance eol eof).lo1 = s.lo1 := by
  simp only [State.advance]; split <;> [rfl; (split <;> rfl)]

@[simp] theorem State.advance_hi1 (eol eof : Bool) : (s.advance eol eof).hi1 = s.hi1 := by
  simp only [State.advance]; split <;> [rfl; (split <;> rfl)]

@[simp] theorem State.advance_lo2 (eol eof : Bool) : (s.advance eol eof).lo2 = s.lo2 := by
  simp only [State.advance]; split <;> [rfl; (split <;> rfl)]

@[simp] theorem State.advance_hi2 (eol eof : Bool) : (s.advance eol eof).hi2 = s.hi2 := by
  simp only [State.advance]; split <;> [rfl; (split <;> rfl)]

@[simp] theorem State.advance_width (eol eof : Bool) : (s.advance eol eof).width = s.width := by
  simp only [State.advance]; split <;> [rfl; (split <;> rfl)]

@[simp] theorem State.advance_height (eol eof : Bool) : (s.advance eol eof).height = s.height := by
  simp only [State.advance]; split <;> [rfl; (split <;> rfl)]

@[simp] theorem State.advance_fword (eol eof : Bool) : (s.advance eol eof).fword = s.fword := by
  simp only [State.advance]; split <;> [rfl; (split <;> rfl)]

@[simp] theorem State.advance_held (eol eof : Bool) : (s.advance eol eof).held = s.held := by
  simp only [State.advance]; split <;> [rfl; (split <;> rfl)]

@[simp] theorem State.advance_pixels (eol eof : Bool) : (s.advance eol eof).pixels = s.pixels := by
  simp only [State.advance]; split <;> [rfl; (split <;> rfl)]

@[simp] theorem State.advance_responses (eol eof : Bool) : (s.advance eol eof).responses = s.responses := by
  simp only [State.advance]; split <;> [rfl; (split <;> rfl)]

@[simp] theorem State.advance_pReady (eol eof : Bool) : (s.advance eol eof).pReady = s.pReady := by
  simp only [State.advance]; split <;> [rfl; (split <;> rfl)]

@[simp] theorem State.advance_rReady (eol eof : Bool) : (s.advance eol eof).rReady = s.rReady := by
  simp only [State.advance]; split <;> [rfl; (split <;> rfl)]

@[simp] theorem State.advance_env (eol eof : Bool) : (s.advance eol eof).env = s.env := by
  simp only [State.advance]; split <;> [rfl; (split <;> rfl)]

/-! ### What `transfer` leaves alone -/

@[simp] theorem State.transfer_lo0 (o : Output) : (s.transfer o).lo0 = s.lo0 := by
  cases o <;> simp [State.transfer]

@[simp] theorem State.transfer_hi0 (o : Output) : (s.transfer o).hi0 = s.hi0 := by
  cases o <;> simp [State.transfer]

@[simp] theorem State.transfer_lo1 (o : Output) : (s.transfer o).lo1 = s.lo1 := by
  cases o <;> simp [State.transfer]

@[simp] theorem State.transfer_hi1 (o : Output) : (s.transfer o).hi1 = s.hi1 := by
  cases o <;> simp [State.transfer]

@[simp] theorem State.transfer_lo2 (o : Output) : (s.transfer o).lo2 = s.lo2 := by
  cases o <;> simp [State.transfer]

@[simp] theorem State.transfer_hi2 (o : Output) : (s.transfer o).hi2 = s.hi2 := by
  cases o <;> simp [State.transfer]

@[simp] theorem State.transfer_width (o : Output) : (s.transfer o).width = s.width := by
  cases o <;> simp [State.transfer]

@[simp] theorem State.transfer_height (o : Output) : (s.transfer o).height = s.height := by
  cases o <;> simp [State.transfer]

@[simp] theorem State.transfer_fword (o : Output) : (s.transfer o).fword = s.fword := by
  cases o <;> simp [State.transfer]

@[simp] theorem State.transfer_held (o : Output) : (s.transfer o).held = s.held := by
  cases o <;> simp [State.transfer]

@[simp] theorem State.transfer_pReady (o : Output) : (s.transfer o).pReady = s.pReady := by
  cases o <;> simp [State.transfer]

@[simp] theorem State.transfer_rReady (o : Output) : (s.transfer o).rReady = s.rReady := by
  cases o <;> simp [State.transfer]

@[simp] theorem State.transfer_env (o : Output) : (s.transfer o).env = s.env := by
  cases o <;> simp [State.transfer]

/-! ### What `emit` leaves alone -/

@[simp] theorem State.emit_lo0 (o : Output) : (s.emit o).lo0 = s.lo0 := by
  simp only [State.emit]; split <;> simp

@[simp] theorem State.emit_hi0 (o : Output) : (s.emit o).hi0 = s.hi0 := by
  simp only [State.emit]; split <;> simp

@[simp] theorem State.emit_lo1 (o : Output) : (s.emit o).lo1 = s.lo1 := by
  simp only [State.emit]; split <;> simp

@[simp] theorem State.emit_hi1 (o : Output) : (s.emit o).hi1 = s.hi1 := by
  simp only [State.emit]; split <;> simp

@[simp] theorem State.emit_lo2 (o : Output) : (s.emit o).lo2 = s.lo2 := by
  simp only [State.emit]; split <;> simp

@[simp] theorem State.emit_hi2 (o : Output) : (s.emit o).hi2 = s.hi2 := by
  simp only [State.emit]; split <;> simp

@[simp] theorem State.emit_width (o : Output) : (s.emit o).width = s.width := by
  simp only [State.emit]; split <;> simp

@[simp] theorem State.emit_height (o : Output) : (s.emit o).height = s.height := by
  simp only [State.emit]; split <;> simp

@[simp] theorem State.emit_fword (o : Output) : (s.emit o).fword = s.fword := by
  simp only [State.emit]; split <;> simp

@[simp] theorem State.emit_pReady (o : Output) : (s.emit o).pReady = s.pReady := by
  simp only [State.emit]; split <;> simp

@[simp] theorem State.emit_rReady (o : Output) : (s.emit o).rReady = s.rReady := by
  simp only [State.emit]; split <;> simp

@[simp] theorem State.emit_env (o : Output) : (s.emit o).env = s.env := by
  simp only [State.emit]; split <;> simp

/-- `retire` where no word is on offer. -/
theorem State.retire_of_none {s : State} (h : s.held = none) : s.retire = s := by
  simp [State.retire, h]

/-- A command that offers a word and retires has transferred it, ready or not. -/
theorem State.emit_retire {s : State} (o : Output) (h : s.held = none) :
    (s.emit o).retire = s.transfer o := by
  simp only [State.emit]
  split
  · exact State.retire_of_none (by simp [h])
  · obtain ⟨_, _, _, _, _, _, _, _, _, _, _, _, _, _, _, _, _, _⟩ := s
    simp only at h
    subst h
    rfl

/-! ### What `retire` leaves alone -/

@[simp] theorem State.retire_lo0 : (s.retire).lo0 = s.lo0 := by
  simp only [State.retire]; split <;> simp

@[simp] theorem State.retire_hi0 : (s.retire).hi0 = s.hi0 := by
  simp only [State.retire]; split <;> simp

@[simp] theorem State.retire_lo1 : (s.retire).lo1 = s.lo1 := by
  simp only [State.retire]; split <;> simp

@[simp] theorem State.retire_hi1 : (s.retire).hi1 = s.hi1 := by
  simp only [State.retire]; split <;> simp

@[simp] theorem State.retire_lo2 : (s.retire).lo2 = s.lo2 := by
  simp only [State.retire]; split <;> simp

@[simp] theorem State.retire_hi2 : (s.retire).hi2 = s.hi2 := by
  simp only [State.retire]; split <;> simp

@[simp] theorem State.retire_width : (s.retire).width = s.width := by
  simp only [State.retire]; split <;> simp

@[simp] theorem State.retire_height : (s.retire).height = s.height := by
  simp only [State.retire]; split <;> simp

@[simp] theorem State.retire_fword : (s.retire).fword = s.fword := by
  simp only [State.retire]; split <;> simp

@[simp] theorem State.retire_pReady : (s.retire).pReady = s.pReady := by
  simp only [State.retire]; split <;> simp

@[simp] theorem State.retire_rReady : (s.retire).rReady = s.rReady := by
  simp only [State.retire]; split <;> simp

@[simp] theorem State.retire_env : (s.retire).env = s.env := by
  simp only [State.retire]; split <;> simp

@[simp] theorem State.retire_held : (s.retire).held = none := by
  simp only [State.retire]; split <;> simp_all

/-! ### What `settle` leaves alone -/

@[simp] theorem State.settle_lo0 : (s.settle).lo0 = s.lo0 := by
  simp only [State.settle]; split <;> [rfl; (split <;> simp)]

@[simp] theorem State.settle_hi0 : (s.settle).hi0 = s.hi0 := by
  simp only [State.settle]; split <;> [rfl; (split <;> simp)]

@[simp] theorem State.settle_lo1 : (s.settle).lo1 = s.lo1 := by
  simp only [State.settle]; split <;> [rfl; (split <;> simp)]

@[simp] theorem State.settle_hi1 : (s.settle).hi1 = s.hi1 := by
  simp only [State.settle]; split <;> [rfl; (split <;> simp)]

@[simp] theorem State.settle_lo2 : (s.settle).lo2 = s.lo2 := by
  simp only [State.settle]; split <;> [rfl; (split <;> simp)]

@[simp] theorem State.settle_hi2 : (s.settle).hi2 = s.hi2 := by
  simp only [State.settle]; split <;> [rfl; (split <;> simp)]

@[simp] theorem State.settle_width : (s.settle).width = s.width := by
  simp only [State.settle]; split <;> [rfl; (split <;> simp)]

@[simp] theorem State.settle_height : (s.settle).height = s.height := by
  simp only [State.settle]; split <;> [rfl; (split <;> simp)]

@[simp] theorem State.settle_fword : (s.settle).fword = s.fword := by
  simp only [State.settle]; split <;> [rfl; (split <;> simp)]

@[simp] theorem State.settle_pReady : (s.settle).pReady = s.pReady := by
  simp only [State.settle]; split <;> [rfl; (split <;> simp)]

@[simp] theorem State.settle_rReady : (s.settle).rReady = s.rReady := by
  simp only [State.settle]; split <;> [rfl; (split <;> simp)]

@[simp] theorem State.settle_env : (s.settle).env = s.env := by
  simp only [State.settle]; split <;> [rfl; (split <;> simp)]

/-! ### The next action of the other agents -/

/-- Which action is taken: the first one, or, while a command is in progress, the first that is not an
offered word; all the others stay, in order. -/
theorem takeAction_eq_some {waiting : Bool} {l left : List EnvAction} {a : EnvAction}
    (h : takeAction waiting l = some (a, left)) :
    ∃ before after, l = before ++ a :: after ∧ left = before ++ after ∧
      (∀ b ∈ before, waiting = true ∧ b.isOffer = true) ∧
      (waiting = true → a.isOffer = false) := by
  induction l generalizing a left with
  | nil => simp [takeAction] at h
  | cons b rest ih =>
    simp only [takeAction] at h
    split at h
    · rename_i hb
      simp only [Bool.and_eq_true] at hb
      simp only [Option.map_eq_some_iff, Prod.mk.injEq] at h
      obtain ⟨⟨c, l'⟩, hc, rfl, rfl⟩ := h
      obtain ⟨before, after, rfl, rfl, hbefore, hne⟩ := ih hc
      refine ⟨b :: before, after, rfl, rfl, ?_, hne⟩
      intro x hx
      rcases List.mem_cons.mp hx with rfl | hx
      · exact hb
      · exact hbefore x hx
    · rename_i hb
      simp only [Option.some.injEq, Prod.mk.injEq] at h
      obtain ⟨rfl, rfl⟩ := h
      exact ⟨[], rest, rfl, rfl, by simp, fun hw => by simpa [hw] using hb⟩

/-- No action is taken: nothing is to come but words the block cannot accept yet. -/
theorem takeAction_eq_none {waiting : Bool} {l : List EnvAction} (h : takeAction waiting l = none) :
    ∀ b ∈ l, waiting = true ∧ b.isOffer = true := by
  induction l with
  | nil => simp
  | cons b rest ih =>
    simp only [takeAction] at h
    split at h
    · rename_i hb
      simp only [Bool.and_eq_true] at hb
      intro x hx
      rcases List.mem_cons.mp hx with rfl | hx
      · exact hb
      · exact ih (by simpa using h) x hx
    · cases h

/-- Taking an action changes nothing but the list of actions. -/
theorem State.nextAction_eq_some {s u : State} {a : EnvAction} (h : s.nextAction = some (a, u)) :
    ∃ left, u = s.withEnv left ∧ takeAction (!s.cReady) s.env = some (a, left) := by
  simp only [State.nextAction, Option.map_eq_some_iff] at h
  obtain ⟨⟨b, left⟩, ht, hb⟩ := h
  simp only [Prod.mk.injEq] at hb
  obtain ⟨rfl, rfl⟩ := hb
  exact ⟨left, rfl, ht⟩

/-- A command word is accepted only where no command is in progress (`20_memory.md` R54). -/
theorem State.nextAction_offer {s u : State} {w : Word32} (h : s.nextAction = some (.offer w, u)) :
    s.held = none := by
  obtain ⟨left, -, ht⟩ := State.nextAction_eq_some h
  obtain ⟨_, _, _, _, _, hne⟩ := takeAction_eq_some ht
  cases hh : s.held with
  | none => rfl
  | some o => simp [State.cReady, hh, EnvAction.isOffer] at hne

end Sys2Proof.Machine
end

