-- ==== Sys2Proof/Laws/PerInstr.lean ====
section
/-! SUPPORT. For every command, the fields of its word (`30_encoding.md` R70, R71). -/

namespace Sys2Proof.Laws.EncodeFields

/-- The operation code of a command (R71). -/
def opOf : Instr → BitVec 4
  | .nop => 0
  | .setReg _ _ => 1
  | .getReg _ => 2
  | .mapSample _ _ => 3
  | .beginFrame => 4
  | .pix _ => 5

/-- The `r` field of a command: its register number or channel, 0 where it has none (R74). -/
def rOf : Instr → BitVec 4
  | .nop => 0
  | .setReg r _ => r
  | .getReg r => r
  | .mapSample c _ => c
  | .beginFrame => 0
  | .pix _ => 0

/-- The `imm` field of a command, 0 where it has none (R73). -/
def immOf : Instr → Word16
  | .nop => 0
  | .setReg _ imm => imm
  | .getReg _ => 0
  | .mapSample _ imm => imm
  | .beginFrame => 0
  | .pix imm => imm

/-- The word of a command carries its operation code and its operands, and `z` is 0. -/
def Statement (i : Instr) : Prop :=
  opField (encode i) = opOf i ∧ rField (encode i) = rOf i ∧ zField (encode i) = 0 ∧
    immField (encode i) = immOf i

theorem nop : Statement .nop := by simp [Statement, encode, opOf, rOf, immOf]

theorem setReg (r : BitVec 4) (imm : Word16) : Statement (.setReg r imm) := by
  simp [Statement, encode, opOf, rOf, immOf]

theorem getReg (r : BitVec 4) : Statement (.getReg r) := by
  simp [Statement, encode, opOf, rOf, immOf]

theorem mapSample (c : BitVec 4) (imm : Word16) : Statement (.mapSample c imm) := by
  simp [Statement, encode, opOf, rOf, immOf]

theorem beginFrame : Statement .beginFrame := by simp [Statement, encode, opOf, rOf, immOf]

theorem pix (imm : Word16) : Statement (.pix imm) := by
  simp [Statement, encode, opOf, rOf, immOf]

end Sys2Proof.Laws.EncodeFields
end

