-- ==== Sys2Proof/Laws/Step.lean ====
section
/-! SUPPORT. Once for all: everything that accepting a word, and one step, can do. -/

namespace Sys2Proof.Machine

/-- A decoded command's word is the word it was decoded from, so `FWORD` records that word (R31). -/
theorem encode_of_decode {w : Word32} {i : Instr} (h : decode w = .ok i) : encode i = w := by
  obtain ⟨hz, h⟩ := decode_ok h
  have hw := commandWord_fields hz
  rcases h with ⟨h1, h2, h3, rfl⟩ | ⟨h1, h2, rfl⟩ | ⟨h1, h2, h3, rfl⟩ | ⟨h1, h2, rfl⟩ |
      ⟨h1, h2, h3, rfl⟩ | ⟨h1, h2, rfl⟩ <;>
    simp only [encode] <;> simp_all

/-! ### Each meaning where the command executes -/

section
variable {s : State}

theorem execGet_eq {r : BitVec 4} {w : Word32} (h : s.readReg r = some w) :
    exec (.getReg r) s = .next (s.emit (.response w)) := by simp [exec, execGet, h]

theorem execSet_eq {r : BitVec 4} {imm : Word16} {t : State} (hf : s.faulted = false)
    (hb : s.busy = false) (h : s.writeReg r imm = some t) : exec (.setReg r imm) s = .next t := by
  simp [exec, execSet, unlessFaulted_of_not_faulted hf, hb, h]

theorem execMap_eq {c : BitVec 4} {imm : Word16} {rg : ChannelRange} (hf : s.faulted = false)
    (h : s.channelRange c = some rg) :
    exec (.mapSample c imm) s = .next (s.emit (.response ((rg.output imm).zeroExtend 32))) := by
  simp [exec, execMap, unlessFaulted_of_not_faulted hf, h]

theorem execBegin_eq (hf : s.faulted = false) (hb : s.busy = false) (hg : s.emptyGrid = false)
    (hr : s.anyReversed = false) : exec .beginFrame s = .next s.openFrame := by
  simp [exec, execBegin, unlessFaulted_of_not_faulted hf, hb, hg, hr]

theorem execPix_eq {imm : Word16} (hf : s.faulted = false) (hb : s.busy = true) :
    exec (.pix imm) s = .next (s.emit (.pixel (s.pixelOf imm))) := by
  simp [exec, execPix, unlessFaulted_of_not_faulted hf, hb]

end

/-- Everything that accepting the word `w` can do: nothing, a fault, the write of one register, the
opening of a frame, a response word, or a pixel word. -/
theorem acceptWord_cases (w : Word32) (s : State) :
    ∃ t, acceptWord w s = .next t ∧
      ((faultOf w s = none ∧ t = s ∧
          (decode w = .ok .nop ∨ (s.faulted = true ∧ ∀ r, decode w ≠ .ok (.getReg r)))) ∨
        (∃ k, faultOf w s = some k ∧ s.faulted = false ∧ t = s.enterFault k w) ∨
        (∃ r imm, faultOf w s = none ∧ s.faulted = false ∧ s.busy = false ∧
          decode w = .ok (.setReg r imm) ∧ s.writeReg r imm = some t) ∨
        (faultOf w s = none ∧ s.faulted = false ∧ s.busy = false ∧ decode w = .ok .beginFrame ∧
          s.width ≠ 0 ∧ s.height ≠ 0 ∧ s.anyReversed = false ∧ t = s.openFrame) ∨
        (∃ r v, faultOf w s = none ∧ decode w = .ok (.getReg r) ∧ s.readReg r = some v ∧
          t = s.emit (.response v)) ∨
        (∃ c imm rg, faultOf w s = none ∧ s.faulted = false ∧ decode w = .ok (.mapSample c imm) ∧
          s.channelRange c = some rg ∧ t = s.emit (.response ((rg.output imm).zeroExtend 32))) ∨
        (∃ imm, faultOf w s = none ∧ s.faulted = false ∧ s.busy = true ∧
          decode w = .ok (.pix imm) ∧ t = s.emit (.pixel (s.pixelOf imm)))) := by
  cases hd : decode w with
  | error e =>
    cases hf : s.faulted <;>
      simp [acceptWord, hd, runMalformed, unlessFaulted, raiseFault, faultOf, hf]
  | ok i =>
    have hw := encode_of_decode hd
    have hwf := (decode_ok hd).2
    cases i with
    | nop => simp [acceptWord, hd, exec, execNop, faultOf]
    | setReg r imm =>
      have hr : r.toNat ≤ 7 := by
        rcases hwf with h | ⟨_, h, h'⟩ | h | h | h | h <;> simp_all
      obtain ⟨t, ht⟩ := Option.isSome_iff_exists.mp ((s.writeReg_isSome_iff r imm).mpr hr)
      cases hf : s.faulted <;> cases hb : s.busy <;>
        simp [acceptWord, hd, exec, execSet, unlessFaulted, raiseFault, faultOf, hf, hb, ht, hw]
    | getReg r =>
      have hr : r.toNat ≤ 11 := by
        rcases hwf with h | h | ⟨_, h, _, h'⟩ | h | h | h <;> simp_all
      obtain ⟨v, hv⟩ := Option.isSome_iff_exists.mp ((s.readReg_isSome_iff r).mpr hr)
      cases hf : s.faulted <;> simp [acceptWord, hd, exec, execGet, faultOf, hf, hv]
    | mapSample c imm =>
      have hc : c.toNat ≤ 2 := by
        rcases hwf with h | h | h | ⟨_, h, h'⟩ | h | h <;> simp_all
      obtain ⟨rg, hrg⟩ := Option.isSome_iff_exists.mp ((s.channelRange_isSome_iff c).mpr hc)
      cases hf : s.faulted <;>
        simp [acceptWord, hd, exec, execMap, unlessFaulted, faultOf, hf, hrg]
    | beginFrame =>
      cases hf : s.faulted
      · cases hb : s.busy
        · rcases Bool.eq_false_or_eq_true s.emptyGrid with hdim | hdim
          · simp [acceptWord, hd, exec, execBegin, unlessFaulted, raiseFault, faultOf, hf, hb, hw,
              hdim, s.emptyGrid_iff.mp hdim]
          · have hdim' : ¬(s.width = 0#16 ∨ s.height = 0#16) := fun h => by
              simp [s.emptyGrid_iff.mpr h] at hdim
            have hne := not_or.mp hdim'
            rcases Bool.eq_false_or_eq_true s.anyReversed with hr | hr
            · simp [acceptWord, hd, exec, execBegin, unlessFaulted, raiseFault, faultOf, hf, hb, hw,
                hdim, hne, hr, s.anyReversed_iff.mp hr]
            · have hr' : ¬(s16 s.hi0 < s16 s.lo0 ∨ s16 s.hi1 < s16 s.lo1 ∨ s16 s.hi2 < s16 s.lo2) :=
                fun h => by simp [s.anyReversed_iff.mpr h] at hr
              simp [acceptWord, hd, exec, execBegin, unlessFaulted, faultOf, hf, hb, hdim, hne, hr,
                hr']
        · simp [acceptWord, hd, exec, execBegin, unlessFaulted, raiseFault, faultOf, hf, hb, hw]
      · simp [acceptWord, hd, exec, execBegin, unlessFaulted, faultOf, hf]
    | pix imm =>
      cases hf : s.faulted <;> cases hb : s.busy <;>
        simp [acceptWord, hd, exec, execPix, unlessFaulted, raiseFault, faultOf, hf, hb, hw]

/-- Everything a step can do: wait, accept a word, reset, or follow a sink's pin. -/
theorem step_cases {s t : State} (h : step s = .next t) :
    (s.nextAction = none ∧ t = s) ∨
      (∃ w u, s.nextAction = some (.offer w, u) ∧ s.held = none ∧ acceptWord w u = .next t) ∨
      (∃ u, s.nextAction = some (.reset, u) ∧ t = u.resetBlock) ∨
      (∃ b u, s.nextAction = some (.drivePixelReady b, u) ∧ t = (u.withPReady b).settle) ∨
      (∃ b u, s.nextAction = some (.driveResponseReady b, u) ∧ t = (u.withRReady b).settle) := by
  simp only [step] at h
  split at h
  · rename_i hn
    cases h
    exact .inl ⟨hn, rfl⟩
  · rename_i a u hn
    cases a with
    | offer w => exact .inr (.inl ⟨w, u, hn, State.nextAction_offer hn, h⟩)
    | reset => cases h; exact .inr (.inr (.inl ⟨u, hn, rfl⟩))
    | drivePixelReady b => cases h; exact .inr (.inr (.inr (.inl ⟨b, u, hn, rfl⟩)))
    | driveResponseReady b => cases h; exact .inr (.inr (.inr (.inr ⟨b, u, hn, rfl⟩)))

end Sys2Proof.Machine
end

