-- ==== Sys2Proof/Laws/Run.lean ====
section
/-! SUPPORT. What one host step can do, runs one step at a time, and one PIX of a frame. -/

namespace Sys2Proof.Machine

@[simp] theorem thenDo_next (t : State) (f : State → StepResult) : thenDo (.next t) f = f t := rfl

@[simp] theorem hostStep_reset (s : State) : hostStep .reset s = .next s.resetBlock := rfl

@[simp] theorem runSteps_nil (s : State) : runSteps [] s = .next s := rfl

theorem runSteps_cons {x : HostStep} {xs : List HostStep} {s t : State} (h : hostStep x s = .next t) :
    runSteps (x :: xs) s = runSteps xs t := by
  rw [runSteps, h, thenDo_next]

theorem runSteps_append {xs ys : List HostStep} {s t : State} (h : runSteps xs s = .next t) :
    runSteps (xs ++ ys) s = runSteps ys t := by
  induction xs generalizing s with
  | nil => cases h; rfl
  | cons x xs ih =>
    cases hx : hostStep x s with
    | next u =>
      rw [runSteps_cons hx] at h
      rw [List.cons_append, runSteps_cons hx]
      exact ih h
    | fault e => cases e
    | refused e => simp [runSteps, hx, thenDo] at h

/-- Everything that a command can do in a run where no word is on offer: nothing, a fault, the write
of one register, the opening of a frame, a response, or a pixel; and no word is on offer after it. -/
theorem hostStep_command_cases {s : State} (w : Word32) (h : s.held = none) :
    ∃ t, hostStep (.command w) s = .next t ∧ t.held = none ∧
      ((faultOf w s = none ∧ t = s ∧
          (decode w = .ok .nop ∨ (s.faulted = true ∧ ∀ r, decode w ≠ .ok (.getReg r)))) ∨
        (∃ k, faultOf w s = some k ∧ s.faulted = false ∧ t = s.enterFault k w) ∨
        (∃ r imm, faultOf w s = none ∧ s.faulted = false ∧ s.busy = false ∧
          decode w = .ok (.setReg r imm) ∧ s.writeReg r imm = some t) ∨
        (faultOf w s = none ∧ s.faulted = false ∧ s.busy = false ∧ decode w = .ok .beginFrame ∧
          s.width ≠ 0 ∧ s.height ≠ 0 ∧ s.anyReversed = false ∧ t = s.openFrame) ∨
        (∃ r v, faultOf w s = none ∧ decode w = .ok (.getReg r) ∧ s.readReg r = some v ∧
          t = s.appendResponse v) ∨
        (∃ c imm rg, faultOf w s = none ∧ s.faulted = false ∧ decode w = .ok (.mapSample c imm) ∧
          s.channelRange c = some rg ∧ t = s.appendResponse ((rg.output imm).zeroExtend 32)) ∨
        (∃ imm, faultOf w s = none ∧ s.faulted = false ∧ s.busy = true ∧ decode w = .ok (.pix imm) ∧
          t = (s.appendPixel (s.pixelOf imm)).advance s.atRowEnd s.atFrameEnd)) := by
  obtain ⟨t, ht, hc⟩ := acceptWord_cases w s
  refine ⟨t.retire, by rw [hostStep, ht, thenDo_next], ?_⟩
  rcases hc with ⟨h1, rfl, h2⟩ | ⟨k, h1, h2, rfl⟩ | ⟨r, imm, h1, h2, h3, h4, h5⟩ |
      ⟨h1, h2, h3, h4, h5, h6, h7, rfl⟩ | ⟨r, v, h1, h2, h3, rfl⟩ |
      ⟨c, imm, rg, h1, h2, h3, h4, rfl⟩ | ⟨imm, h1, h2, h3, h4, rfl⟩
  · rw [State.retire_of_none h]
    exact ⟨h, .inl ⟨h1, rfl, h2⟩⟩
  · rw [State.retire_of_none (by simpa using h)]
    exact ⟨by simpa using h, .inr (.inl ⟨k, h1, h2, rfl⟩)⟩
  · have ht' : t.held = none := by rw [(State.writeReg_frame _ h5).2.2.2.2.1, h]
    rw [State.retire_of_none ht']
    exact ⟨ht', .inr (.inr (.inl ⟨r, imm, h1, h2, h3, h4, h5⟩))⟩
  · rw [State.retire_of_none (by simpa using h)]
    exact ⟨by simpa using h, .inr (.inr (.inr (.inl ⟨h1, h2, h3, h4, h5, h6, h7, rfl⟩)))⟩
  · rw [State.emit_retire _ h]
    exact ⟨by simpa using h, .inr (.inr (.inr (.inr (.inl ⟨r, v, h1, h2, h3, rfl⟩))))⟩
  · rw [State.emit_retire _ h]
    exact ⟨by simpa using h, .inr (.inr (.inr (.inr (.inr (.inl ⟨c, imm, rg, h1, h2, h3, h4, rfl⟩)))))⟩
  · rw [State.emit_retire _ h]
    exact ⟨by simpa using h, .inr (.inr (.inr (.inr (.inr (.inr ⟨imm, h1, h2, h3, h4, rfl⟩)))))⟩

/-! ### One PIX of a frame -/

/-- The eight configuration registers of `s` are those of `s₀`. -/
structure SameConfig (s₀ s : State) : Prop where
  lo0 : s.lo0 = s₀.lo0
  hi0 : s.hi0 = s₀.hi0
  lo1 : s.lo1 = s₀.lo1
  hi1 : s.hi1 = s₀.hi1
  lo2 : s.lo2 = s₀.lo2
  hi2 : s.hi2 = s₀.hi2
  width : s.width = s₀.width
  height : s.height = s₀.height

/-- `s` is at the position of sample number `n` of a frame with the configuration of `s₀`
(`41_frame.md` R113). -/
structure AtSample (s₀ : State) (n : Nat) (s : State) : Prop where
  config : SameConfig s₀ s
  column : s.xpos.toNat = n % s₀.width.toNat
  row : s.ypos.toNat = n / s₀.width.toNat
  inside : n < s₀.width.toNat * s₀.height.toNat

theorem AtSample.width_pos {s₀ s : State} {n : Nat} (h : AtSample s₀ n s) : 0 < s₀.width.toNat :=
  Nat.pos_of_mul_pos_right (Nat.lt_of_le_of_lt (Nat.zero_le _) h.inside)

/-- `n` is the last of `W * H` exactly at the last column of the last row. -/
theorem last_sample_iff {W H n : Nat} (hW : 0 < W) (hn : n < W * H) :
    (n % W + 1 = W ∧ n / W + 1 = H) ↔ n + 1 = W * H := by
  have hdm := Nat.div_add_mod n W
  have hmod := Nat.mod_lt n hW
  have hlt : n / W < H := by rw [Nat.div_lt_iff_lt_mul hW, Nat.mul_comm]; exact hn
  constructor
  · rintro ⟨hx, hy⟩
    rw [← hy, Nat.mul_succ]
    omega
  · intro hl
    have hy : n / W + 1 = H := by
      by_contra hne
      have := Nat.mul_le_mul_left W (show n / W + 2 ≤ H by omega)
      rw [Nat.mul_add] at this
      omega
    subst hy
    rw [Nat.mul_succ] at hl
    omega

/-- The pixel of a sample at its position is the one that its number gives. -/
theorem AtSample.pixelOf {s₀ s : State} {n : Nat} (h : AtSample s₀ n s) (v : Word16) :
    s.pixelOf v = framePixel s₀ n v := by
  have hlast := last_sample_iff h.width_pos h.inside
  obtain ⟨⟨h1, h2, h3, h4, h5, h6, h7, h8⟩, hx, hy, -⟩ := h
  simp only [State.pixelOf, framePixel, State.pixelData, State.atRowEnd, State.atFrameEnd, u16,
    h1, h2, h3, h4, h5, h6, h7, h8, hx, hy]
  generalize s₀.width.toNat = W at *
  generalize s₀.height.toNat = H at *
  have hcol : ((n % W : Nat) : Int) = (W : Int) - 1 ↔ n % W + 1 = W := by
    generalize n % W = m
    omega
  have hrow : ((n / W : Nat) : Int) = (H : Int) - 1 ↔ n / W + 1 = H := by
    generalize n / W = m
    omega
  congr 1
  · rw [decide_eq_decide, hcol]
  · rw [← Bool.decide_and, decide_eq_decide, hcol, hrow, hlast]

/-- The next column and row in row-major order. -/
theorem next_position {W n : Nat} (hW : 0 < W) :
    (n % W + 1 = W → (n + 1) % W = 0 ∧ (n + 1) / W = n / W + 1) ∧
      (n % W + 1 ≠ W → (n + 1) % W = n % W + 1 ∧ (n + 1) / W = n / W) := by
  have hdm := Nat.div_add_mod n W
  have hmod := Nat.mod_lt n hW
  constructor
  · intro hl
    have hn : n + 1 = W * (n / W + 1) := by rw [Nat.mul_succ]; omega
    exact ⟨by rw [hn]; exact Nat.mul_mod_right _ _, by rw [hn]; exact Nat.mul_div_cancel_left _ hW⟩
  · intro hl
    have hdiv : (n + 1) / W = n / W := by
      rw [Nat.div_eq_iff hW, Nat.mul_comm]
      constructor <;> omega
    have hnext := Nat.div_add_mod (n + 1) W
    rw [hdiv] at hnext
    exact ⟨by omega, hdiv⟩

/-- One PIX of a frame: the next pixel of R113, and then the next sample or the end of the frame. -/
theorem AtSample.advance {s₀ s t : State} {n : Nat} (h : AtSample s₀ n s) (v : Word16)
    (ht : t = (s.appendPixel (s.pixelOf v)).advance s.atRowEnd s.atFrameEnd) :
    SameConfig s₀ t ∧ t.pixels = s.pixels ++ [framePixel s₀ n v] ∧ t.fword = s.fword ∧
      t.responses = s.responses ∧ SameWorld s t ∧
      ((n + 1 < s₀.width.toNat * s₀.height.toNat ∧ t.status = s.status ∧ AtSample s₀ (n + 1) t) ∨
        (n + 1 = s₀.width.toNat * s₀.height.toNat ∧ t.status = statusCloseFrame s.status ∧
          t.xpos = 0 ∧ t.ypos = 0)) := by
  subst ht
  have hp := h.pixelOf v
  have heol : s.atRowEnd = decide (n % s₀.width.toNat + 1 = s₀.width.toNat) := congrArg Pixel.eol hp
  have heof : s.atFrameEnd = decide (n + 1 = s₀.width.toNat * s₀.height.toNat) :=
    congrArg Pixel.eof hp
  have hmod := Nat.mod_lt n h.width_pos
  obtain ⟨hnext, hsame⟩ := next_position (n := n) h.width_pos
  obtain ⟨⟨h1, h2, h3, h4, h5, h6, h7, h8⟩, hx, hy, hn⟩ := h
  have hW := s₀.width.isLt
  have hH := s₀.height.isLt
  have hrow : n / s₀.width.toNat < s₀.height.toNat := by
    rw [Nat.div_lt_iff_lt_mul (Nat.pos_of_mul_pos_right (Nat.lt_of_le_of_lt (Nat.zero_le _) hn)),
      Nat.mul_comm]
    exact hn
  have hc : SameConfig s₀ ((s.appendPixel (s.pixelOf v)).advance s.atRowEnd s.atFrameEnd) := by
    constructor <;> simp [*]
  refine ⟨hc, by simp [hp], by simp, by simp, by simp [SameWorld], ?_⟩
  by_cases hf : n + 1 = s₀.width.toNat * s₀.height.toNat
  · exact .inr (by simp [heof, hf, State.advance])
  · refine .inl ⟨by omega, ?_, hc, ?_, ?_, by omega⟩ <;> simp only [heof, hf, decide_false]
    · simp only [State.advance]
      split
      · contradiction
      · split <;> simp
    all_goals
      by_cases hl : n % s₀.width.toNat + 1 = s₀.width.toNat
      · simp only [heol, hl, State.advance, (hnext hl).1, (hnext hl).2]
        simp [hy]
        try omega
      · simp only [heol, hl, State.advance, (hsame hl).1, (hsame hl).2]
        simp [hx, hy]
        try omega

end Sys2Proof.Machine
end

