-- ==== Sys2Proof/Tests/Slice0.lean ====
section
/-! SUPPORT. Tests: well-formedness, words written out from `30_encoding.md`, vectors of
`95_test_vectors.md` as single steps, and for each statement a witness of its hypotheses. -/

namespace Sys2Proof.Tests

open Sys2Proof.Machine

/-! ### Small states -/

/-- Phase IDLE with every range (-1000, 200) and a 2 by 2 grid, as in program P1 before its BEGIN. -/
def ready : State :=
  { State.reset with
    lo0 := 0xFC18, hi0 := 0x00C8, lo1 := 0xFC18, hi1 := 0x00C8, lo2 := 0xFC18, hi2 := 0x00C8
    width := 2, height := 2 }

/-- The same in its frame, at column `x` and row `y`. -/
def frameAt (x y : Word16) : State := { ready with status := 0x0001, xpos := x, ypos := y }

/-- The frame of V31: three different ranges. -/
def lanes : State :=
  { frameAt 0 0 with lo1 := 0xFF60, hi1 := 0x00F0, lo2 := 0, hi2 := 0 }

/-- Phase FAULTED, with the record that V54 leaves. -/
def broken : State := { ready with status := 0x0024, fword := 0x50000000 }

/-- A state whose last frame ran to completion. -/
def finished : State := { ready with status := 0x0002 }

/-- Phase IDLE with every range (0, 0) and a 1 by 1 grid, as in V34 before its BEGIN. -/
def small : State := { State.reset with width := 1, height := 1 }

/-- A state with neither sink ready. -/
def blocked (s : State) : State := { s with pReady := false, rReady := false }

/-- A state in which a GET of `HI0` waits for the response sink. -/
def waiting : State := { blocked ready with held := some (.response 0x000000C8) }

/-- The next state, where there is one. -/
def nextOf : StepResult → Option State
  | .next s => some s
  | _ => none

/-- The state after one step that presents the word `w` in `s`. -/
def after (s : State) (w : Nat) : Option State := nextOf (step (s.withFetchWord 32 w))

/-! ### Well-formedness (R71) -/

theorem test_wf_set : (Instr.setReg 7 5).wellFormed = true ∧ (Instr.setReg 8 5).wellFormed = false := by
  decide
theorem test_wf_get : (Instr.getReg 11).wellFormed = true ∧ (Instr.getReg 12).wellFormed = false := by
  decide
theorem test_wf_map :
    (Instr.mapSample 2 0).wellFormed = true ∧ (Instr.mapSample 3 0).wellFormed = false := by decide

/-! ### Decoding (V40 to V47) -/

theorem test_decode_nop : decodeTableWord 32 0b00000000000000000000000000000000 = some .nop := by decide
theorem test_decode_set :
    decodeTableWord 32 0b00010111000000001111111111111111 = some (.setReg 7 0xFFFF) := by decide
theorem test_decode_get : decodeTableWord 32 0b00101011000000000000000000000000 = some (.getReg 11) := by
  decide
theorem test_decode_map :
    decodeTableWord 32 0b00110010000000001000000000000000 = some (.mapSample 2 0x8000) := by decide
theorem test_decode_begin : decodeTableWord 32 0b01000000000000000000000000000000 = some .beginFrame := by
  decide
theorem test_decode_pix :
    decodeTableWord 32 0b01010000000000001111111001110000 = some (.pix 0xFE70) := by decide

/-- V47, with the way in which each word is malformed. -/
theorem test_decode_malformed :
    ([0x60000000, 0xFFFFFFFF, 0x00000001, 0x01000000, 0x10010005, 0x18000005, 0x1F000000, 0x28000001,
      0x2C000000, 0x33000000, 0x41000000, 0x40000001, 0x51000000, 0x50800000] : List Word32).map
        (fun w => (decode w, decodeByTable w)) =
      [(.error .reservedOp, none), (.error .reservedBits, none), (.error .immediateSet, none),
        (.error .operandRange, none), (.error .reservedBits, none), (.error .operandRange, none),
        (.error .operandRange, none), (.error .immediateSet, none), (.error .operandRange, none),
        (.error .operandRange, none), (.error .operandRange, none), (.error .immediateSet, none),
        (.error .operandRange, none), (.error .reservedBits, none)] := by decide

/-! ### The mapper -/

/-- V14. -/
theorem test_map_proper :
    ([-32768, -1001, -1000, -996, -995, 0, 199, 200, 201, 32767] : List Int).map
      (mapValue · (-1000) 200) = [0, 0, 0, 0, 1, 212, 254, 255, 255, 255] := by decide

/-- V20 and V21. -/
theorem test_map_degenerate :
    ([-32768, 4, 5, 6] : List Int).map (mapValue · 5 5) = [0, 0, 255, 255] ∧
      mapValue (-32768) (-32768) (-32768) = 255 := by decide

/-- V23. -/
theorem test_map_reversed :
    ([-1001, -1000, 0, 199, 200, 201] : List Int).map (mapValue · 200 (-1000)) =
      [0, 0, 0, 0, 255, 255] := by decide

/-- V27, through the widths of R96. -/
theorem test_map_widest :
    ([0x8000, 0x8100, 0x8101, 0xFFFF, 0x0000, 0x7EFD, 0x7EFE, 0x7FFF] : List Word16).map
      (mapDatapath · 0x8000 0x7FFF) = [0, 0, 1, 127, 127, 253, 254, 255] := by decide

/-- V28, its row of the largest product. -/
theorem test_map_product :
    distance 0x7FFF 0x8000 = 65535 ∧ product (distance 0x7FFF 0x8000) = 0xFEFF01 := by decide

/-! ### One step of each command -/

/-- V61: SET stores the raw word. -/
theorem test_step_set :
    (after State.reset 0x1000FC18).map (fun t => (t.lo0, t.status)) = some (0xFC18, 0x0000) := by decide

/-- V58: a SET in a frame writes nothing but the fault. -/
theorem test_step_set_busy :
    (after (frameAt 1 0) 0x10000005).map (fun t => (t.lo0, t.status, t.fword, t.xpos)) =
      some (0xFC18, 0x0025, 0x10000005, 1) := by decide

/-- V61: GET answers the raw bits, not sign-extended. -/
theorem test_step_get :
    (after ready 0x20000000).map (fun t => t.responses) = some [0x0000FC18] := by decide

/-- V53: GET 12. -/
theorem test_step_get_malformed :
    (after State.reset 0x2C000000).map (fun t => (t.status, t.fword, t.responses)) =
      some (0x0014, 0x2C000000, []) := by decide

/-- V3. -/
theorem test_step_map : (after ready 0x3000FE70).map (fun t => t.responses) = some [0x0000007F] := by
  decide

/-- V65: MAP in phase FAULTED answers nothing. -/
theorem test_step_map_faulted : after broken 0x30000000 = some broken := by decide

/-- V57, its first BEGIN. -/
theorem test_step_begin :
    (after finished 0x40000000).map (fun t => (t.status, t.xpos, t.ypos)) = some (0x0001, 0, 0) := by
  decide

/-- V60: DIM comes before RANGE. -/
theorem test_step_begin_dim :
    (after { State.reset with lo0 := 1 } 0x40000000).map (fun t => (t.status, t.fword)) =
      some (0x0034, 0x40000000) := by decide

/-- V31: channel 0 is the low byte. -/
theorem test_step_pix :
    (after lanes 0x50000028).map (fun t => (t.pixels, t.xpos)) =
      some ([⟨0xFF7FDD, false, false⟩], 1) := by decide

/-- P1, the last pixel of its frame. -/
theorem test_step_pix_last :
    (after (frameAt 1 1) 0x50000000).map (fun t => (t.pixels, t.status, t.xpos, t.ypos)) =
      some ([⟨0xD4D4D4, true, true⟩], 0x0002, 0, 0) := by decide

/-- V64: NOP, and a malformed NOP (V51). -/
theorem test_step_nop :
    after (frameAt 1 0) 0 = some (frameAt 1 0) ∧
      (after State.reset 0x00000001).map (fun t => (t.status, t.fword)) = some (0x0014, 1) := by decide

/-- V66: reset clears the registers and keeps the traces; a word waiting for its sink is withdrawn. -/
theorem test_step_reset :
    nextOf (step { waiting with responses := [7], env := [.offer 0, .reset] }) =
      some { blocked State.reset with responses := [7], env := [.offer 0] } := by decide

/-- R53, R55: a word waits, and leaves when its sink becomes ready. -/
theorem test_step_waits :
    nextOf (step { waiting with env := [.offer 0] }) = some { waiting with env := [.offer 0] } ∧
      nextOf (step { waiting with env := [.driveResponseReady true] }) =
        some { blocked ready with rReady := true, responses := [0x000000C8] } := by decide

/-- R53: a pin driven to 0 leaves the waiting word as it is. -/
theorem test_step_pin_low :
    nextOf (step { waiting with env := [.driveResponseReady false] }) = some waiting ∧
      nextOf (step { ready with env := [.drivePixelReady false] }) =
        some { ready with pReady := false } := by decide

/-! ### Observation, runs and pins -/

/-- V34: the one frame of the host steps, its samples and its pixels. -/
theorem test_frames_of_run :
    (framesOf [.command 0x40000000, .command 0x50000000] small).map
        (fun f => (f.samples, f.isWhole, f.pixels)) =
      [([0], true, [⟨0xFFFFFF, true, true⟩])] := by decide

/-- V54: a run that aborts, and its result (R171). -/
theorem test_run_aborted :
    (nextOf (run [.command 0x50000000])).bind State.abortedAt = some 0x50000000 ∧
      convertedItsFrames [.command 0x50000000] = false ∧
      (runResult [.command 0x50000000]).map (fun o => o.pixels) = some [] := by decide

/-- A host step ends with its command retired, whatever the pins showed (R171). -/
theorem test_host_step_retires :
    (nextOf (hostStep (.command 0x21000000) (blocked ready))).map (fun t => (t.held, t.responses)) =
      some (none, [0x000000C8]) := by decide

/-- R37: the observation of reset, and whether a run is complete (R171). -/
theorem test_observe :
    State.reset.observe = ⟨List.replicate 12 0, [], []⟩ ∧ finished.ranToCompletion = true ∧
      (frameAt 0 0).ranToCompletion = false ∧ broken.ranToCompletion = false := by decide

/-- R51, R53: what the ports show while a response waits. -/
theorem test_pins :
    waiting.outputPins = ⟨false, none, some 0x000000C8, false, false, false⟩ ∧
      State.commandOffer { waiting with env := [.offer 5] } = some 5 := by decide

/-! ### The assembler (V41 to V46, R81) -/

theorem test_asm_lines :
    (["NOP", "SET LO0, -1000", "SET HEIGHT, 65535", "GET FWORD", "MAP 2, -32768", "BEGIN",
      "PIX 0xFE70", "SET WIDTH, 512 ; columns", "GET 8", "; nothing"].map fun t =>
        assembleText t.toList) =
      [some [0x00000000], some [0x1000FC18], some [0x1700FFFF], some [0x2B000000], some [0x32008000],
        some [0x40000000], some [0x5000FE70], some [0x16000200], some [0x28000000], some []] := by
  decide

theorem test_asm_pseudo :
    (["RANGE 1, -160, 240", "DIM 2, 2", "SETHI 2, 200", "SETLO 0, 5", ".word 0x60000000"].map fun t =>
        assembleText t.toList) =
      [some [0x1200FF60, 0x130000F0], some [0x16000002, 0x17000002], some [0x150000C8],
        some [0x10000005], some [0x60000000]] := by decide

theorem test_asm_refuses :
    (["SET STATUS, 5", "GET 12", "MAP 3, 0", "PIX 65536", "PIX -32769", "DIM -1, 1", "nop"].map fun t =>
        assembleText t.toList) = List.replicate 7 none := by decide

/-! ### Witnesses: the hypotheses of each statement can be met, at the ends of their ranges -/

theorem witness_FieldsDecideTheCommand :
    (5 : Nat) < 16 ∧ (15 : Nat) < 16 ∧ (255 : Nat) < 256 ∧ (65535 : Nat) < 65536 := by decide

theorem witness_TableRowsAdmitTheirWords :
    opcodeTable = [rowNop, rowSet, rowGet, rowMap, rowBegin, rowPix] ∧ rowNop.admits 0 = true ∧
      rowSet.admits 0x1700FFFF = true ∧ rowGet.admits 0x2B000000 = true ∧
      rowMap.admits 0x3200FFFF = true ∧ rowBegin.admits 0x40000000 = true ∧
      rowPix.admits 0x5000FFFF = true :=
  ⟨rfl, by decide, by decide, by decide, by decide, by decide, by decide⟩

theorem witness_MalformedWordIsIllegal :
    (decode 0x60000000).toOption = none ∧ (decode 0x18000000).toOption = none ∧
      State.reset.phase ≠ .faulted ∧ (frameAt 1 1).phase ≠ .faulted ∧ broken.phase = .faulted := by
  decide

theorem witness_FloatingCommandPort : State.reset.phase ≠ .faulted := by decide

theorem witness_OnlyTheZeroWordNeverActs : ∀ s, acceptWord 0x00000000 s = .next s := fun _ => rfl

theorem witness_SignedReadingUndoesEncoding :
    (-32768 : Int) ≤ -32768 ∧ (-32768 : Int) ≤ 32767 ∧ (32767 : Int) ≤ 32767 ∧
      (65535 : Int) ≤ 65535 := by decide

theorem witness_MapClampsAndDegenerateRange :
    (-1001 : Int) < -1000 ∧ ((-1000 : Int) ≤ 201 ∧ (200 : Int) < 201) ∧ (5 : Int) = 5 := by decide

theorem witness_MapIsTheExactFloor :
    (-1000 : Int) ≤ -1000 ∧ (-1000 : Int) ≤ 200 ∧ (200 : Int) ≤ 200 ∧ (-1000 : Int) < 200 := by decide

theorem witness_MapOfReversedRangeIsAStep : (-1 : Int) < 0 ∧ (-32768 : Int) < 0 := by decide

theorem witness_MapBoundaryValues : (0 : Int) < 1 ∧ (0 : Int) ≤ 0 := by decide

theorem witness_MapDerivedProperties :
    (3 : Int) ≤ 3 ∧ ((0 : Int) < 1 ∧ (1 : Int) - 0 < 255 ∧ (0 : Int) ≤ 1 ∧ (1 : Int) ≤ 1 - 0) ∧
      ((0 : Int) < 254 ∧ (254 : Int) - 0 < 255) ∧ ((0 : Int) ≤ 254 ∧ (254 : Int) ≤ 254) ∧
      ((0 : Int) ≤ 255 ∧ (255 : Int) ≤ 255) := by decide

theorem witness_DatapathWidthsSuffice :
    s16 0x8000 ≤ s16 0x7FFF ∧ s16 0x7FFF ≤ s16 0x7FFF ∧ s16 0x8000 < s16 0x7FFF := by decide

theorem witness_MapCommandAnswers :
    ((2 : BitVec 4).toNat ≤ 2 ∧ (frameAt 0 0).phase ≠ .faulted ∧ (frameAt 0 0).rReady = true ∧
      (frameAt 0 0).readReg (2 * 2) = some ((0xFC18 : Word16).zeroExtend 32) ∧
      (frameAt 0 0).readReg (2 * 2 + 1) = some ((0x00C8 : Word16).zeroExtend 32)) ∧
      broken.phase = .faulted ∧ ready.phase ≠ .faulted ∧
      (opField 0x33000000 = 3 ∧ 2 < (rField 0x33000000).toNat) ∧
      (opField 0x30010000 = 3 ∧ zField 0x30010000 ≠ 0) ∧
      (ready.lo0 = 0xFC18 ∧ ready.hi0 = 0x00C8 ∧ ready.rReady = true) := by decide

theorem witness_MapAnswerDependsOnItsRangeAlone :
    (0 : BitVec 4).toNat ≤ 2 ∧ lanes.phase ≠ .faulted ∧ ready.phase ≠ .faulted ∧
      lanes.rReady = true ∧ ready.rReady = true ∧ lanes ≠ ready ∧
      lanes.readReg (2 * 0) = ready.readReg (2 * 0) ∧
      lanes.readReg (2 * 0 + 1) = ready.readReg (2 * 0 + 1) := by decide

theorem witness_NopHasNoEffect :
    opField 0x00000001 = 0 ∧ (0x00000001 : Word32) ≠ 0 ∧ ready.phase ≠ .faulted := by decide

theorem witness_SetWritesOneRegister :
    ((7 : BitVec 4).toNat ≤ 7 ∧ finished.phase = .idle) ∧ (frameAt 0 0).phase = .busy ∧
      broken.phase = .faulted ∧ (frameAt 0 0).phase ≠ .faulted ∧
      (opField 0x18000005 = 1 ∧ 7 < (rField 0x18000005).toNat) ∧
      (opField 0x10010005 = 1 ∧ zField 0x10010005 ≠ 0) := by decide

theorem witness_GetAnswersTheRegister :
    ready.rReady = true ∧ ((10 : BitVec 4).toNat ≤ 10 ∧ (frameAt 1 1).readReg 10 = some 1) ∧
      (ready.phase ≠ .faulted ∧ broken.phase = .faulted) ∧
      (opField 0x2C000000 = 2 ∧ 11 < (rField 0x2C000000).toNat) ∧
      (opField 0x28000001 = 2 ∧ immField 0x28000001 ≠ 0) ∧
      (opField 0x28010000 = 2 ∧ zField 0x28010000 ≠ 0) ∧ ready.hi0 = 0x00C8 := by decide

theorem witness_ReadsHaveNoSideEffect :
    (11 : BitVec 4).toNat ≤ 11 ∧ broken.rReady = true ∧ (11 : BitVec 4).toNat ≤ 11 ∧
      (2 : BitVec 4).toNat ≤ 2 := by decide

theorem witness_SetTakesEffectAtOnce :
    (7 : BitVec 4).toNat ≤ 7 ∧ ready.phase = .idle ∧ ready.rReady = true := by decide

theorem witness_BeginOpensAFrame :
    (ready.phase = .idle ∧ ready.width ≠ 0 ∧ ready.height ≠ 0 ∧ s16 ready.lo0 ≤ s16 ready.hi0 ∧
      s16 ready.lo1 ≤ s16 ready.hi1 ∧ s16 ready.lo2 ≤ s16 ready.hi2 ∧ ready.status = 0x0000) ∧
      (frameAt 0 0).phase = .busy ∧ (State.reset.phase = .idle ∧ State.reset.width = 0) ∧
      (State.phase { ready with lo2 := 201 } = .idle ∧ s16 201 > s16 ready.hi2) ∧
      broken.phase = .faulted := by decide

theorem witness_PixEmitsOnePixelAndAdvances :
    ((frameAt 1 1).phase = .busy ∧ (frameAt 1 1).pReady = true ∧ (frameAt 1 1).status = 0x0001) ∧
      finished.phase = .idle ∧ broken.phase = .faulted ∧
      ((frameAt 1 1).xpos = 1 ∧ (frameAt 1 1).ypos = 1 ∧ (frameAt 1 1).width = 2 ∧
        (frameAt 1 1).height = 2 ∧ (frameAt 1 1).lo2 = 0xFC18 ∧ (frameAt 1 1).hi2 = 0x00C8) ∧
      ((lanes.pixelOf 0).eof = false ∧ (lanes.pixelOf 0).eol = false) ∧
      (((frameAt 1 0).pixelOf 0).eof = false ∧ ((frameAt 1 0).pixelOf 0).eol = true) ∧
      ((frameAt 1 1).pixelOf 0).eof = true ∧
      (opField 0x51000000 = 5 ∧ rField 0x51000000 ≠ 0) ∧
      (opField 0x50800000 = 5 ∧ zField 0x50800000 ≠ 0) := by decide

theorem witness_LanesDoNotInteract :
    lanes.channelRange 0 = some ⟨0xFC18, 0x00C8⟩ ∧ ready.channelRange 0 = some ⟨0xFC18, 0x00C8⟩ ∧
      lanes.channelRange 2 = some ⟨0, 0⟩ ∧ State.reset.channelRange 2 = some ⟨0, 0⟩ := by decide

theorem witness_PixelByteOrder :
    lanes.lo0 = 0xFC18 ∧ lanes.hi0 = 0x00C8 ∧ lanes.lo1 = 0xFF60 ∧ lanes.hi1 = 0x00F0 ∧
      lanes.lo2 = 0 ∧ lanes.hi2 = 0 := by decide

theorem witness_PixTraversalIsRowMajor :
    (∀ i ∈ ([.pix 0, .getReg 9, .mapSample 2 5, .nop, .pix 1] : List Instr), mayStandInFrame i = true) ∧
      ([.pix 0, .getReg 9, .mapSample 2 5, .nop, .pix 1] : List Instr).filterMap sampleOf = [0, 1] ∧
      (frameAt 0 0).phase = .busy ∧ (frameAt 0 0).held = none ∧ (frameAt 0 0).xpos = 0 ∧
      (frameAt 0 0).ypos = 0 ∧
      ([0, 1] : List Word16).length < (frameAt 0 0).width.toNat * (frameAt 0 0).height.toNat := by
  decide

theorem witness_FrameHasTheShapeOfItsGrid :
    0 < (frameAt 0 0).width.toNat * (frameAt 0 0).height.toNat ∧ (frameAt 0 0).phase = .busy ∧
      (frameAt 0 0).held = none ∧ (frameAt 0 0).xpos = 0 ∧ (frameAt 0 0).ypos = 0 ∧
      (∀ i ∈ ([.pix 0, .pix 1, .getReg 11, .pix 2, .pix 3, .nop] : List Instr),
        mayStandInFrame i = true) ∧
      (([.pix 0, .pix 1, .getReg 11, .pix 2, .pix 3, .nop] : List Instr).filterMap sampleOf).length =
        (frameAt 0 0).width.toNat * (frameAt 0 0).height.toNat := by
  decide

theorem witness_RunEmitsItsFrames :
    small.held = none ∧ small.phase ≠ .busy ∧
      (framesOf [.command 0x40000000, .reset] small).map RunFrame.isWhole = [false] := by decide

theorem witness_CompletedRunHasConvertedItsFrames :
    HostStep.reset ∉ ([.command 0x16000001, .command 0x17000001, .command 0x40000000] : List HostStep) ∧
      (nextOf (run [.command 0x16000001, .command 0x17000001, .command 0x40000000])).map State.busy =
        some true := by decide

theorem witness_FaultedRunAbortedAtFword :
    ready.held = none ∧ ready.faulted = false ∧
      ∃ t, runSteps [.command 0x50000000] ready = .next t ∧ t.faulted = true :=
  ⟨by decide, by decide, _, rfl, by decide⟩

theorem witness_HostStepsAreStepsOfTheMachine :
    (ready.held = none ∧ ready.pReady = true ∧ ready.rReady = true ∧
      State.env { ready with env := [.offer 0x40000000, .reset, .offer 0] } =
        ([.command 0x40000000, .reset] : List HostStep).map HostStep.action ++ [.offer 0]) ∧
      (blocked ready).held = none := by decide

/-- The invariant says nothing about the actions to come. -/
theorem inv_env {s : State} (h : s.Inv) (env : List EnvAction) : State.Inv { s with env := env } :=
  ⟨h.1, h.2, h.3, h.4, h.5, h.6, h.7, h.8, h.9, h.10⟩

theorem inv_frameAt : (frameAt 1 0).Inv :=
  ⟨by decide, by decide, by decide, by decide, by decide, by decide, by decide, by decide,
    by simp [frameAt, ready, State.reset], by simp [frameAt, ready, State.reset]⟩

theorem inv_broken : broken.Inv :=
  ⟨by decide, by decide, by decide, by decide, by decide, by decide, by decide, by decide,
    by simp [broken, ready, State.reset], by simp [broken, ready, State.reset]⟩

theorem witness_OpenFrameIsLeftOnlyThreeWays :
    State.Inv { frameAt 1 0 with env := [.offer 0x40000000] } ∧
      State.phase { frameAt 1 0 with env := [.offer 0x40000000] } = .busy ∧
      ∃ t, step { frameAt 1 0 with env := [.offer 0x40000000] } = .next t ∧ t.phase = .faulted :=
  ⟨inv_env inv_frameAt _, by decide, _, rfl, by decide⟩

theorem witness_EachWordRaisesItsFaultAndNoOther :
    faultOf 0x60000000 ready = some .illegal ∧ faultOf 0x50000000 ready = some .seq ∧
      faultOf 0x40000000 State.reset = some .dim ∧
      faultOf 0x40000000 { ready with lo2 := 201 } = some .range ∧ faultOf 0x40000000 ready = none ∧
      faultOf 0x60000000 broken = none := by decide

theorem witness_FaultedBlockRunsOnlyNopAndGet :
    broken.phase = .faulted ∧ decode 0x00000000 = .ok .nop ∧ decode 0x2B000000 = .ok (.getReg 11) ∧
      broken.rReady = true ∧ decode 0x3000FC18 = .ok (.mapSample 0 0xFC18) ∧
      (decode 0x3000FC18 ≠ .ok .nop ∧ ∀ r, decode 0x3000FC18 ≠ .ok (.getReg r)) := by decide

theorem witness_FaultIsLeftOnlyByReset :
    State.Inv { broken with env := [.reset] } ∧ State.phase { broken with env := [.reset] } = .faulted ∧
      ∃ t, step { broken with env := [.reset] } = .next t ∧ t.phase = .idle :=
  ⟨inv_env inv_broken _, by decide, _, rfl, by decide⟩

theorem witness_FwordIsWrittenByFaultEntryOnly :
    ∃ t, step { ready with env := [.offer 0x50000000] } = .next t ∧ t.fword ≠ ready.fword :=
  ⟨_, rfl, by decide⟩

theorem witness_FwordIsWrittenByFaultEntryOnly_reset :
    ∃ t, step { broken with env := [.reset] } = .next t ∧ t.fword ≠ broken.fword :=
  ⟨_, rfl, by decide⟩

theorem witness_StepKeepsTheFaultRecord :
    State.Inv { broken with env := [.offer 0x10000005] } ∧
      State.FaultRecord { broken with env := [.offer 0x10000005] } ∧
      ∃ t, step { broken with env := [.offer 0x10000005] } = .next t :=
  ⟨inv_env inv_broken _, fun _ => .inr (.inr (.inl ⟨by decide, by decide, 0, by decide⟩)), _, rfl⟩

theorem witness_MapOfTheResetRange :
    (2 : BitVec 4).toNat ≤ 2 ∧ broken.rReady = true ∧ s16 0xFFFF < 0 ∧ ¬ s16 0x0000 < 0 := by decide

theorem witness_StepKeepsTheInvariant :
    State.Inv { frameAt 1 0 with env := [.offer 0x50000000] } ∧
      ∃ t, step { frameAt 1 0 with env := [.offer 0x50000000] } = .next t :=
  ⟨inv_env inv_frameAt _, _, rfl⟩

theorem witness_OnlySetWritesTheConfiguration :
    ∃ t, step { ready with env := [.offer 0x17000005] } = .next t ∧ t.height = 5 :=
  ⟨_, rfl, by decide⟩

theorem witness_DoneStaysUntilBeginOrReset :
    ∃ t, step { finished with env := [.offer 0x40000000] } = .next t ∧ finished.done = true ∧
      t.done = false :=
  ⟨_, rfl, by decide, by decide⟩

theorem witness_PositionMovesOnlyWithAPixel :
    ∃ t, step { frameAt 1 0 with env := [.offer 0x50000000] } = .next t ∧ t.ypos = 1 ∧ t.xpos = 0 :=
  ⟨_, rfl, by decide, by decide⟩

theorem witness_TracesOnlyGrow :
    ∃ t, step { ready with env := [.offer 0x21000000] } = .next t ∧ t.responses = [0x000000C8] :=
  ⟨_, rfl, by decide⟩

theorem witness_StepRunsTheDecodedCommand :
    State.held { ready with env := [.offer 0x21000000] } = none ∧
      State.env { ready with env := [.offer 0x21000000] } = .offer 0x21000000 :: [] ∧
      decode 0x21000000 = .ok (.getReg 1) ∧ decode 0x2C000000 = .error .operandRange := by decide

theorem witness_OutputWordWaitsForItsSink :
    ((blocked (frameAt 1 1)).phase = .busy ∧ (blocked (frameAt 1 1)).held = none ∧
      (blocked (frameAt 1 1)).pReady = false) ∧
      ((11 : BitVec 4).toNat ≤ 11 ∧ (blocked broken).held = none ∧ (blocked broken).rReady = false) ∧
      ((2 : BitVec 4).toNat ≤ 2 ∧ (blocked ready).phase ≠ .faulted ∧ (blocked ready).held = none ∧
        (blocked ready).rReady = false ∧
        (blocked ready).readReg (2 * 2) = some ((0xFC18 : Word16).zeroExtend 32) ∧
        (blocked ready).readReg (2 * 2 + 1) = some ((0x00C8 : Word16).zeroExtend 32)) := by decide

theorem witness_WaitingChangesNothing :
    (blocked ready).held = none ∧
      ∃ t, exec (.getReg 1) (blocked ready) = .next t ∧ t = waiting ∧ t.held ≠ none :=
  ⟨by decide, _, rfl, by decide, by decide⟩

/-- A state in which the last PIX of a frame waits for the pixel sink. -/
def lastPixelWaiting : State :=
  { blocked (frameAt 1 1) with held := some (.pixel ((frameAt 1 1).pixelOf 0)) }

theorem witness_DrivenPinMovesOnlyTheWordItReleases :
    (∃ u, State.nextAction { ready with env := [.drivePixelReady false] } =
        some (.drivePixelReady false, u)) ∧
      (∃ u, State.nextAction { lastPixelWaiting with env := [.offer 0, .drivePixelReady true] } =
        some (.drivePixelReady true, u)) ∧
      (∃ u, State.nextAction { lastPixelWaiting with env := [.driveResponseReady true] } =
        some (.driveResponseReady true, u)) ∧
      (∃ u, State.nextAction { waiting with env := [.offer 0, .driveResponseReady true] } =
        some (.driveResponseReady true, u)) ∧
      ready.held = none ∧ lastPixelWaiting.pReady = false ∧ waiting.rReady = false ∧
      lastPixelWaiting.held = some (.pixel ⟨0xD4D4D4, true, true⟩) ∧
      waiting.held = some (.response 0x000000C8) :=
  ⟨⟨_, rfl⟩, ⟨_, rfl⟩, ⟨_, rfl⟩, ⟨_, rfl⟩, by decide⟩

theorem witness_WaitingBlockAcceptsNoCommand :
    waiting.held = some (.response 0x000000C8) ∧
      (∃ u, State.nextAction { waiting with env := [.offer 0, .reset] } = some (.reset, u)) ∧
      ∀ a ∈ ([.offer 0, .offer 1] : List EnvAction), a.isOffer = true :=
  ⟨by decide, ⟨_, rfl⟩, by decide⟩

theorem witness_ResetMayComeAtAnyTime :
    (∃ u, State.nextAction { waiting with env := [.offer 0, .reset, .offer 1] } = some (.reset, u)) ∧
      State.env { ready with env := [.reset, .offer 0] } = .reset :: [.offer 0] ∧
      waiting.held ≠ none ∧ (∀ a ∈ ([.offer 0] : List EnvAction), a.isOffer = true) ∧
      State.env { waiting with env := [.offer 0, .reset, .offer 1] } =
        [.offer 0] ++ .reset :: [.offer 1] :=
  ⟨⟨_, rfl⟩, by decide, by decide, by decide, by decide⟩

theorem witness_PinsMirrorStatus : (frameAt 0 0).readReg 8 = some 0x00000001 := by decide

theorem witness_AssemblerEmitsTheCommandsWord :
    ((7 : Nat) ≤ 7 ∧ (-32768 : Int) ≤ -32768 ∧ (-32768 : Int) ≤ 65535) ∧
      ((11 : Nat) ≤ 11 ∧ (2 : Nat) ≤ 2 ∧ (65535 : Int) ≤ 65535) ∧
      ((7 : Nat) < 8 ∧ (11 : Nat) < 12 ∧ (2 : Nat) < 3 ∧ (-32769 : Int) < -32768 ∧
        (65535 : Int) < 65536) := by decide

theorem witness_PseudoInstructionsExpand :
    assemble (.set (2 * 1) (-160)) = some [0x1200FF60] ∧
      assemble (.set (2 * 1 + 1) 240) = some [0x130000F0] ∧
      assemble (.range 0 5 6) = some [0x10000005, 0x11000006] ∧
      assemble (.range 1 5 6) = some [0x12000005, 0x13000006] ∧
      assemble (.range 2 5 6) = some [0x14000005, 0x15000006] ∧
      assemble (.set 6 65535) = some [0x1600FFFF] ∧ assemble (.set 7 0) = some [0x17000000] ∧
      (-1 : Int) < 0 ∧ (65535 : Int) < 65536 := by decide

end Sys2Proof.Tests
end

section
/-! PROOFS. The statements about the state: what reset leaves and what the status pins show
(`10_state.md` R30, R40, R41). -/

namespace Sys2Proof.Machine

/-! ### The state after reset -/

/-- The reset that starts a run leaves every readable register 0 (R40). -/
theorem State.readReg_reset {r : BitVec 4} (hr : r.toNat ≤ 11) : State.reset.readReg r = some 0 := by
  revert r
  decide

/-- A later reset leaves the registers that the first one leaves (R40). -/
theorem State.regsSame_reset_resetBlock (s : State) : RegsSame State.reset s.resetBlock :=
  RegsSame.of_fields (by simp [State.reset])

theorem State.readReg_resetBlock (s : State) {r : BitVec 4} (hr : r.toNat ≤ 11) :
    s.resetBlock.readReg r = some 0 :=
  (s.regsSame_reset_resetBlock r List.not_mem_nil).trans (State.readReg_reset hr)

@[simp] theorem State.resetBlock_phase (s : State) : s.resetBlock.phase = .idle := by
  simp [State.phase_idle_iff]

/-- Every channel has the range (0, 0) after reset (R41). -/
theorem State.channelRange_resetBlock (s : State) {c : BitVec 4} (hc : c.toNat ≤ 2) :
    s.resetBlock.channelRange c = some ⟨0, 0⟩ := by
  have hcases : c.toNat = 0 ∨ c.toNat = 1 ∨ c.toNat = 2 := by omega
  rcases hcases with h | h | h <;> simp [State.channelRange, h]

/-- Settles O37: the first reset by its twelve values, a later one because it leaves the same. -/
theorem resetZeroesEveryRegister : Obligations.ResetZeroesEveryRegister :=
  ⟨fun _ => State.readReg_reset, rfl, rfl, rfl, fun s =>
    ⟨fun _ => s.readReg_resetBlock, s.resetBlock_phase, s.resetBlock_pixels,
      s.resetBlock_responses⟩⟩

/-! ### MAP after reset -/

/-- A degenerate range maps to 0 below its one value and to 255 from it up (`40_mapper.md` R93). -/
theorem ChannelRange.output_degenerate (b imm : Word16) :
    ChannelRange.output ⟨b, b⟩ imm = if s16 imm < s16 b then 0 else 255 := by
  simp only [ChannelRange.output]
  split
  case isTrue h => rw [mapValue_of_lt h]; rfl
  case isFalse h => rw [mapValue_of_eq h rfl]; rfl

/-- Settles O38: after reset every channel has the degenerate range at 0. -/
theorem mapOfTheResetRange : Obligations.MapOfTheResetRange := by
  intro c imm s hc hready
  have hword : (ChannelRange.output ⟨0, 0⟩ imm).zeroExtend 32 =
      if s16 imm < 0 then 0x00000000 else 0x000000FF := by
    rw [ChannelRange.output_degenerate, show s16 0 = 0 from rfl]
    split <;> rfl
  have hsink : s.resetBlock.rReady = true := hready
  rw [execMap_eq s.resetBlock_faulted (s.channelRange_resetBlock hc), hword,
    State.emit_response_of_ready _ hsink, s.resetBlock_responses]

/-! ### The status pins -/

theorem State.readReg_status (s : State) : s.readReg 8 = some (s.status.zeroExtend 32) := rfl

/-- Settles O51: `STATUS` reads zero-extended, which keeps its three low bits. -/
theorem pinsMirrorStatus : Obligations.PinsMirrorStatus := by
  intro s w hw
  rw [State.readReg_status, Option.some.injEq] at hw
  subst hw
  simp [State.outputPins, State.busy, State.done, State.faulted, statusBusy, statusDone,
    statusFault]

end Sys2Proof.Machine
end

section
/-! PROOFS. The statement about the order of the lanes in a pixel word (`20_memory.md` R57). -/

namespace Sys2Proof.Machine

/-! ### The output of one channel -/

/-- Every output of `map` fits an 8-bit lane; on the linear path the offset is at most the span. -/
theorem mapValue_range (v lo hi : Int) : 0 ≤ mapValue v lo hi ∧ mapValue v lo hi ≤ 255 := by
  by_cases below : v < lo
  · simp [mapValue_of_lt below]
  by_cases above : v > hi
  · simp [mapValue_of_gt below above]
  by_cases degenerate : lo = hi
  · simp [mapValue_of_eq below degenerate]
  have hspan : 0 < hi - lo := by omega
  rw [mapValue_linear (by omega) (by omega) (by omega)]
  exact ⟨Int.ediv_nonneg (by omega) hspan.le, Int.ediv_le_of_le_mul hspan (by omega)⟩

/-- The 8 bits of a channel's output lose nothing of the integer that `map` gives (R16). -/
@[simp] theorem ChannelRange.output_toNat (rg : ChannelRange) (imm : Word16) :
    ((rg.output imm).toNat : Int) = mapValue (s16 imm) (s16 rg.low) (s16 rg.high) := by
  have hrange := mapValue_range (s16 imm) (s16 rg.low) (s16 rg.high)
  rw [ChannelRange.output, BitVec.toNat_ofInt]
  omega

/-! ### Lanes of a word of three bytes -/

section
variable (o2 o1 o0 : Intensity)

@[simp] theorem lane_zero_append : lane (o2 ++ o1 ++ o0) 0 = o0 :=
  BitVec.extractLsb'_append_eq_right

@[simp] theorem lane_one_append : lane (o2 ++ o1 ++ o0) 1 = o1 :=
  (BitVec.extractLsb'_append_eq_of_le (by decide)).trans BitVec.extractLsb'_append_eq_right

@[simp] theorem lane_two_append : lane (o2 ++ o1 ++ o0) 2 = o2 :=
  (BitVec.extractLsb'_append_eq_of_le (by decide)).trans BitVec.extractLsb'_append_eq_left

end

/-! ### Lanes of a pixel -/

section
variable (s : State) (imm : Word16)

@[simp] theorem State.lane_zero_pixelData :
    lane (s.pixelData imm) 0 = ChannelRange.output ⟨s.lo0, s.hi0⟩ imm :=
  lane_zero_append ..

@[simp] theorem State.lane_one_pixelData :
    lane (s.pixelData imm) 1 = ChannelRange.output ⟨s.lo1, s.hi1⟩ imm :=
  lane_one_append ..

@[simp] theorem State.lane_two_pixelData :
    lane (s.pixelData imm) 2 = ChannelRange.output ⟨s.lo2, s.hi2⟩ imm :=
  lane_two_append ..

/-- A serialising sink sends the outputs of channels 0, 1 and 2 in this order (R57). -/
theorem State.bytes_pixelData (eol eof : Bool) :
    Pixel.bytes ⟨s.pixelData imm, eol, eof⟩ =
      [ChannelRange.output ⟨s.lo0, s.hi0⟩ imm, ChannelRange.output ⟨s.lo1, s.hi1⟩ imm,
        ChannelRange.output ⟨s.lo2, s.hi2⟩ imm] := by
  simp [Pixel.bytes]

end

/-- Settles O26: lane `c` of the word is the output of channel `c`, whose byte is the value of `map`;
V31 by the three outputs of its sample. -/
theorem pixelByteOrder : Obligations.PixelByteOrder := by
  refine ⟨fun imm s eol eof => ⟨?bytes, ?word⟩, ?v31⟩
  case bytes => simp [s.bytes_pixelData imm eol eof]
  case word =>
    rw [s.lane_zero_pixelData, s.lane_one_pixelData, s.lane_two_pixelData, State.pixelData]
  case v31 =>
    intro s hlo0 hhi0 hlo1 hhi1 hlo2 hhi2
    rw [State.pixelData, hlo0, hhi0, hlo1, hhi1, hlo2, hhi2]
    decide

end Sys2Proof.Machine
end

section
/-! PROOFS. The statements about the decoder (`30_encoding.md` R70, R76, R78): which words decode, and
to what. -/

namespace Sys2Proof

/-! ### What a word decodes to -/

@[simp] theorem toOption_ok {ε α : Type} (a : α) :
    (Except.ok a : Except ε α).toOption = some a := rfl

@[simp] theorem toOption_error {ε α : Type} (e : ε) :
    (Except.error e : Except ε α).toOption = none := rfl

/-- The decoder's answers, each with exactly its conditions on the fields (R76). -/
theorem decode_ok_iff {w : Word32} {i : Instr} :
    decode w = .ok i ↔
      zField w = 0 ∧
        ((opField w = 0 ∧ rField w = 0 ∧ immField w = 0 ∧ i = .nop) ∨
          (opField w = 1 ∧ (rField w).toNat ≤ 7 ∧ i = .setReg (rField w) (immField w)) ∨
          (opField w = 2 ∧ (rField w).toNat ≤ 11 ∧ immField w = 0 ∧ i = .getReg (rField w)) ∨
          (opField w = 3 ∧ (rField w).toNat ≤ 2 ∧ i = .mapSample (rField w) (immField w)) ∨
          (opField w = 4 ∧ rField w = 0 ∧ immField w = 0 ∧ i = .beginFrame) ∨
          (opField w = 5 ∧ rField w = 0 ∧ i = .pix (immField w))) := by
  refine ⟨decode_ok, ?_⟩
  rintro ⟨hz, ⟨hop, hr, himm, rfl⟩ | ⟨hop, hr, rfl⟩ | ⟨hop, hr, himm, rfl⟩ | ⟨hop, hr, rfl⟩ |
      ⟨hop, hr, himm, rfl⟩ | ⟨hop, hr, rfl⟩⟩ <;>
    simp [decode, *]

/-- A word that decodes to no command. -/
theorem decode_toOption_eq_none_iff_not_exists {w : Word32} :
    (decode w).toOption = none ↔ ¬ ∃ i, decode w = .ok i := by
  cases decode w <;> simp

/-- The words that decode, by their fields (R76). -/
theorem exists_decode_ok_iff {w : Word32} :
    (∃ i, decode w = .ok i) ↔
      zField w = 0 ∧
        ((opField w = 0 ∧ rField w = 0 ∧ immField w = 0) ∨
          (opField w = 1 ∧ (rField w).toNat ≤ 7) ∨
          (opField w = 2 ∧ (rField w).toNat ≤ 11 ∧ immField w = 0) ∨
          (opField w = 3 ∧ (rField w).toNat ≤ 2) ∨
          (opField w = 4 ∧ rField w = 0 ∧ immField w = 0) ∨
          (opField w = 5 ∧ rField w = 0)) := by
  simp only [decode_ok_iff, exists_and_left, exists_or, exists_eq, and_true]

/-- The four ways for a word to be malformed (R78): what is left of R76. -/
theorem decode_toOption_eq_none_iff (w : Word32) :
    (decode w).toOption = none ↔
      6 ≤ (opField w).toNat ∨ zField w ≠ 0 ∨
      (opField w = 1 ∧ 8 ≤ (rField w).toNat) ∨ (opField w = 2 ∧ 12 ≤ (rField w).toNat) ∨
      (opField w = 3 ∧ 3 ≤ (rField w).toNat) ∨
      ((opField w = 0 ∨ opField w = 4 ∨ opField w = 5) ∧ rField w ≠ 0) ∨
      ((opField w = 0 ∨ opField w = 2 ∨ opField w = 4) ∧ immField w ≠ 0) := by
  rw [decode_toOption_eq_none_iff_not_exists, exists_decode_ok_iff]
  simp only [← BitVec.toNat_inj, BitVec.ofNat_eq_ofNat, BitVec.toNat_ofNat, ne_eq]
  omega

/-! ### The word of four numbers -/

section
variable {op r z imm : Nat}

/-- The word that R70 makes of the numbers `op`, `r`, `z` and `imm`. -/
def wordOfFields (op r z imm : Nat) : Word32 :=
  BitVec.ofNat 32 (op * 2 ^ 28 + r * 2 ^ 24 + z * 2 ^ 16 + imm)

theorem wordOfFields_toNat (hop : op < 16) (hr : r < 16) (hz : z < 256) (himm : imm < 65536) :
    (wordOfFields op r z imm).toNat = op * 2 ^ 28 + r * 2 ^ 24 + z * 2 ^ 16 + imm := by
  rw [wordOfFields, BitVec.toNat_ofNat]
  omega

/-- The fields of the word are the numbers it is made of (R70). -/
theorem fields_wordOfFields (hop : op < 16) (hr : r < 16) (hz : z < 256) (himm : imm < 65536) :
    opField (wordOfFields op r z imm) = BitVec.ofNat 4 op ∧
      rField (wordOfFields op r z imm) = BitVec.ofNat 4 r ∧
      zField (wordOfFields op r z imm) = BitVec.ofNat 8 z ∧
      immField (wordOfFields op r z imm) = BitVec.ofNat 16 imm := by
  have hw := wordOfFields_toNat hop hr hz himm
  refine ⟨?_, ?_, ?_, ?_⟩ <;> apply BitVec.eq_of_toNat_eq <;>
    simp only [opField_toNat, rField_toNat, zField_toNat, immField_toNat, hw, BitVec.toNat_ofNat] <;>
    omega

end

/-- A number that fits its field is 0 there only if it is 0. -/
theorem ofNat_eq_zero_iff {n k : Nat} (h : k < 2 ^ n) : BitVec.ofNat n k = 0 ↔ k = 0 := by
  rw [← BitVec.toNat_inj, BitVec.toNat_ofNat, Nat.mod_eq_of_lt h, BitVec.ofNat_eq_ofNat,
    BitVec.toNat_ofNat, Nat.zero_mod]

/-- Settles O2: the fields of the word are the four numbers, and for each `op` the decoder's nested
tests of `r` and `imm` are the one condition of R76. -/
theorem fieldsDecideTheCommand : Obligations.FieldsDecideTheCommand := by
  intro op r z imm hop hr hz himm
  obtain ⟨fop, fr, fz, fimm⟩ := fields_wordOfFields hop hr hz himm
  have r0 := ofNat_eq_zero_iff (n := 4) hr
  have z0 := ofNat_eq_zero_iff (n := 8) hz
  have imm0 := ofNat_eq_zero_iff (n := 16) himm
  have opNat : (BitVec.ofNat 4 op).toNat = op := Nat.mod_eq_of_lt hop
  have rNat : (BitVec.ofNat 4 r).toNat = r := Nat.mod_eq_of_lt hr
  have above : 11 < r ↔ ¬ r ≤ 11 := not_le.symm
  rw [← wordOfFields]
  simp only [decode, fop, fr, fz, fimm, opNat, rNat, r0, z0, imm0, above, ne_eq, ite_not]
  rcases op with _ | _ | _ | _ | _ | _ | op <;>
    simp [apply_ite Except.toOption, ite_and]

end Sys2Proof
end

section
/-! PROOFS. The statement about the table of masks (`30_encoding.md` R72): what each row admits and how
many words that is. -/

namespace Sys2Proof

/-! ### Sets of words given by their fields -/

/-- The words with `z` 0, the operation code `op`, an `r` in `R` and an immediate in `I` (R70). -/
def wordsWith (op : BitVec 4) (R : Finset (BitVec 4)) (I : Finset Word16) : Finset Word32 :=
  (R ×ˢ I).image fun p => commandWord op p.1 p.2

section
variable {op : BitVec 4} {R : Finset (BitVec 4)} {I : Finset Word16}

theorem mem_wordsWith {w : Word32} :
    w ∈ wordsWith op R I ↔ zField w = 0 ∧ opField w = op ∧ rField w ∈ R ∧ immField w ∈ I := by
  simp only [wordsWith, Finset.mem_image, Finset.mem_product, Prod.exists]
  constructor
  · rintro ⟨r, imm, ⟨hr, himm⟩, rfl⟩
    simp [hr, himm]
  · rintro ⟨hz, rfl, hr, himm⟩
    exact ⟨rField w, immField w, ⟨hr, himm⟩, commandWord_fields hz⟩

/-- The operands can be read back off a word, so different operands make different words. -/
theorem card_wordsWith : (wordsWith op R I).card = R.card * I.card := by
  have hinj : Function.Injective fun p : BitVec 4 × Word16 => commandWord op p.1 p.2 :=
    fun p q h => Prod.ext (by simpa using congrArg rField h) (by simpa using congrArg immField h)
  rw [wordsWith, Finset.card_image_of_injective _ hinj, Finset.card_product]

end

/-- The `r` fields up to a largest one. -/
def rUpTo (n : Nat) : Finset (BitVec 4) := {r | r.toNat ≤ n}

@[simp] theorem mem_rUpTo {n : Nat} {r : BitVec 4} : r ∈ rUpTo n ↔ r.toNat ≤ n := by
  simp [rUpTo]

theorem card_immediates : (Finset.univ : Finset Word16).card = 65536 := by
  rw [Finset.card_univ, ← FinEnum.card_eq_fintypeCard, FinEnum.card_bitVec]
  rfl

/-! ### The rows -/

/-- The row is that of the words of `wordsWith op R I`: it admits them and no others, they are the
words that decode to its command, it counts them, and its pattern is `op` with all else 0. -/
structure TableRow.StandsFor (row : TableRow) (op : BitVec 4) (R : Finset (BitVec 4))
    (I : Finset Word16) : Prop where
  admits_iff : ∀ w, row.admits w = true ↔ w ∈ wordsWith op R I
  decode_iff : ∀ w, decode w = .ok (row.command (rField w) (immField w)) ↔ w ∈ wordsWith op R I
  words_eq : R.card * I.card = row.words
  pattern_eq : row.pattern = commandWord op 0 0

theorem TableRow.admits_iff_mask (row : TableRow) (w : Word32) :
    row.admits w = true ↔ w &&& row.mask = row.pattern ∧ (rField w).toNat ≤ row.rMax := by
  simp [TableRow.admits]

/-- A further condition `r <= 15` is none. -/
theorem TableRow.admits_iff_fixed {row : TableRow} (h : row.rMax = 15) (w : Word32) :
    row.admits w = true ↔ w &&& row.mask = row.pattern := by
  rw [row.admits_iff_mask, h, and_iff_left (Nat.le_of_lt_succ (rField w).isLt)]

/-- A mask of all 32 bits fixes the whole word. -/
theorem mask_full_iff (w : Word32) (op : BitVec 4) :
    w &&& 0xFFFFFFFF = commandWord op 0 0 ↔ w ∈ wordsWith op {0} {0} := by
  rw [show w &&& 0xFFFFFFFF = w from BitVec.and_allOnes]
  simp [wordsWith]

theorem rowNop_standsFor : rowNop.StandsFor 0 {0} {0} where
  admits_iff w := (TableRow.admits_iff_fixed rfl w).trans (mask_full_iff w 0)
  decode_iff w := by simp [decode_ok_iff, mem_wordsWith, rowNop]
  words_eq := rfl
  pattern_eq := rfl

theorem rowSet_standsFor : rowSet.StandsFor 1 (rUpTo 7) Finset.univ where
  admits_iff w := calc
    rowSet.admits w = true ↔ _ := TableRow.admits_iff_fixed rfl w
    _ ↔ _ := mask_set_iff w
    _ ↔ w ∈ wordsWith 1 (rUpTo 7) Finset.univ := by simp [mem_wordsWith]
  decode_iff w := by simp [decode_ok_iff, mem_wordsWith, rowSet]
  words_eq := by rw [card_immediates]; rfl
  pattern_eq := rfl

theorem rowGet_standsFor : rowGet.StandsFor 2 (rUpTo 11) {0} where
  admits_iff w := calc
    rowGet.admits w = true ↔ _ := rowGet.admits_iff_mask w
    _ ↔ _ := and_congr_left' (mask_get_iff w)
    _ ↔ w ∈ wordsWith 2 (rUpTo 11) {0} := by
      rw [mem_wordsWith, and_comm (a := rField w ∈ _)]
      simp [rowGet, and_assoc]
  decode_iff w := by simp [decode_ok_iff, mem_wordsWith, rowGet]
  words_eq := rfl
  pattern_eq := rfl

theorem rowMap_standsFor : rowMap.StandsFor 3 (rUpTo 2) Finset.univ where
  admits_iff w := calc
    rowMap.admits w = true ↔ _ := rowMap.admits_iff_mask w
    _ ↔ _ := and_congr_left' (mask_map_iff w)
    _ ↔ w ∈ wordsWith 3 (rUpTo 2) Finset.univ := by simp [mem_wordsWith, rowMap, and_assoc]
  decode_iff w := by simp [decode_ok_iff, mem_wordsWith, rowMap]
  words_eq := by rw [card_immediates]; rfl
  pattern_eq := rfl

theorem rowBegin_standsFor : rowBegin.StandsFor 4 {0} {0} where
  admits_iff w := (TableRow.admits_iff_fixed rfl w).trans (mask_full_iff w 4)
  decode_iff w := by simp [decode_ok_iff, mem_wordsWith, rowBegin]
  words_eq := rfl
  pattern_eq := rfl

theorem rowPix_standsFor : rowPix.StandsFor 5 {0} Finset.univ where
  admits_iff w := calc
    rowPix.admits w = true ↔ _ := TableRow.admits_iff_fixed rfl w
    _ ↔ _ := mask_pix_iff w
    _ ↔ w ∈ wordsWith 5 {0} Finset.univ := by simp [mem_wordsWith]
  decode_iff w := by simp [decode_ok_iff, mem_wordsWith, rowPix]
  words_eq := by rw [card_immediates]; rfl
  pattern_eq := rfl

theorem exists_standsFor : ∀ row ∈ opcodeTable, ∃ op R I, row.StandsFor op R I := by
  simp only [opcodeTable, List.forall_mem_cons]
  exact ⟨⟨_, _, _, rowNop_standsFor⟩, ⟨_, _, _, rowSet_standsFor⟩, ⟨_, _, _, rowGet_standsFor⟩,
    ⟨_, _, _, rowMap_standsFor⟩, ⟨_, _, _, rowBegin_standsFor⟩, ⟨_, _, _, rowPix_standsFor⟩, by simp⟩

/-! ### The whole table -/

/-- A row admits the words that decode to its command. -/
theorem admits_iff_decode {row : TableRow} (h : row ∈ opcodeTable) (w : Word32) :
    row.admits w = true ↔ decode w = .ok (row.command (rField w) (immField w)) := by
  obtain ⟨op, R, I, hrow⟩ := exists_standsFor row h
  exact (hrow.admits_iff w).trans (hrow.decode_iff w).symm

theorem card_admits {row : TableRow} (h : row ∈ opcodeTable) :
    (Finset.univ.filter fun w => row.admits w = true).card = row.words := by
  obtain ⟨op, R, I, hrow⟩ := exists_standsFor row h
  rw [← hrow.words_eq, ← card_wordsWith (op := op)]
  congr 1
  ext w
  simp [hrow.admits_iff]

/-- The word decides the operation code, so also the row that admits it. -/
theorem pattern_eq_of_admits {row : TableRow} (h : row ∈ opcodeTable) {w : Word32}
    (hw : row.admits w = true) : row.pattern = commandWord (opField w) 0 0 := by
  obtain ⟨op, R, I, hrow⟩ := exists_standsFor row h
  have hop := (mem_wordsWith.mp ((hrow.admits_iff w).mp hw)).2.1
  rw [hrow.pattern_eq, hop]

/-- No two rows have a word in common. -/
theorem opcodeTable_disjoint :
    opcodeTable.Pairwise fun row row' => ∀ w, row.admits w = true → row'.admits w ≠ true := by
  have hne : (opcodeTable.map (·.pattern)).Nodup := by decide
  refine (List.pairwise_map.mp hne).imp_of_mem fun hrow hrow' hpat w hw hw' => hpat ?_
  rw [pattern_eq_of_admits hrow hw, pattern_eq_of_admits hrow' hw']

/-- Every command of the decoder is that of a row. -/
theorem exists_row_of_decode {w : Word32} {i : Instr} (h : decode w = .ok i) :
    ∃ row ∈ opcodeTable, i = row.command (rField w) (immField w) := by
  simp only [opcodeTable, List.exists_mem_cons_iff]
  rcases (decode_ok h).2 with ⟨_, _, _, rfl⟩ | ⟨_, _, rfl⟩ | ⟨_, _, _, rfl⟩ | ⟨_, _, rfl⟩ |
      ⟨_, _, _, rfl⟩ | ⟨_, _, rfl⟩ <;>
    simp [rowNop, rowSet, rowGet, rowMap, rowBegin, rowPix]

/-- A word decodes to a command where some row admits it. -/
theorem decode_isSome_iff (w : Word32) :
    (decode w).toOption.isSome = true ↔ ∃ row ∈ opcodeTable, row.admits w = true := by
  constructor
  · cases hd : decode w with
    | error => simp
    | ok i =>
      obtain ⟨row, hrow, rfl⟩ := exists_row_of_decode hd
      exact fun _ => ⟨row, hrow, (admits_iff_decode hrow w).mpr hd⟩
  · rintro ⟨row, hrow, hw⟩
    simp [(admits_iff_decode hrow w).mp hw]

/-- The words that rows without a word in common admit are as many as the rows admit one by one. -/
theorem card_exists_admits {rows : List TableRow}
    (h : rows.Pairwise fun row row' => ∀ w, row.admits w = true → row'.admits w ≠ true) :
    (Finset.univ.filter fun w => ∃ row ∈ rows, row.admits w = true).card =
      (rows.map fun row => (Finset.univ.filter fun w => row.admits w = true).card).sum := by
  induction rows with
  | nil => simp
  | cons row rows ih =>
    obtain ⟨hrow, hrows⟩ := List.pairwise_cons.mp h
    have hdisj : Disjoint (Finset.univ.filter fun w => row.admits w = true)
        (Finset.univ.filter fun w => ∃ row' ∈ rows, row'.admits w = true) :=
      Finset.disjoint_filter.mpr fun w _ hw ⟨row', hmem, hw'⟩ => hrow row' hmem w hw hw'
    simp only [List.exists_mem_cons_iff, Finset.filter_or, List.map_cons, List.sum_cons]
    rw [Finset.card_union_of_disjoint hdisj, ih hrows]

/-- Settles O3: each row stands for the words with its operation code and a product of operand sets,
and the well-formed words are those of six disjoint rows. -/
theorem tableRowsAdmitTheirWords : Obligations.TableRowsAdmitTheirWords := by
  refine ⟨fun row h => ⟨admits_iff_decode h, card_admits h⟩, fun row h row' h' w hw hw' => ?_, ?_⟩
  · rw [pattern_eq_of_admits h hw, pattern_eq_of_admits h' hw']
  · calc
      _ = (Finset.univ.filter fun w => ∃ row ∈ opcodeTable, row.admits w = true).card := by
        simp only [decode_isSome_iff]
      _ = (opcodeTable.map TableRow.words).sum := by
        rw [card_exists_admits opcodeTable_disjoint, List.map_congr_left fun _ => card_admits]
      _ = 786446 := rfl

end Sys2Proof
end

section
/-! PROOFS. The statements about malformed words and words without effect (`30_encoding.md` R78 to
R80). -/

namespace Sys2Proof.Machine

/-! ### Malformed words -/

section
variable {w : Word32} {s : State}

theorem acceptWord_of_malformed (hw : (decode w).toOption = none) :
    acceptWord w s = runMalformed w s := by
  cases hd : decode w with
  | error e => simp [acceptWord, hd]
  | ok i => simp [hd] at hw

/-- In phases IDLE and BUSY a malformed word takes the fault `ILLEGAL` (R78). -/
theorem acceptWord_malformed_faults (hw : (decode w).toOption = none) (hs : s.phase ≠ .faulted) :
    ∃ t, acceptWord w s = .next t ∧ FaultTaken .illegal w s t := by
  have hf : s.faulted = false := by rwa [Ne, s.phase_faulted_iff, Bool.not_eq_true] at hs
  refine ⟨s.enterFault .illegal w, ?_, FaultTaken.enterFault s .illegal w⟩
  rw [acceptWord_of_malformed hw, runMalformed, unlessFaulted_of_not_faulted hf, raiseFault]

/-- In phase FAULTED a malformed word is discarded (R78, `60_exceptions.md` R141). -/
theorem acceptWord_malformed_discarded (hw : (decode w).toOption = none) (hs : s.phase = .faulted) :
    acceptWord w s = .next s := by
  rw [acceptWord_of_malformed hw, runMalformed,
    unlessFaulted_of_faulted (s.phase_faulted_iff.mp hs)]

end

/-- Settles O5: the four ways are the complement of R76, and the effect depends on the phase alone. -/
theorem malformedWordIsIllegal : Obligations.MalformedWordIsIllegal :=
  ⟨decode_toOption_eq_none_iff, fun _ _ => acceptWord_malformed_faults,
    fun _ _ => acceptWord_malformed_discarded⟩

/-! ### The two words of a floating command port -/

theorem decode_zero : decode 0x00000000 = .ok .nop := rfl

theorem acceptWord_zero (s : State) : acceptWord 0x00000000 s = .next s := by
  simp only [acceptWord, decode_zero, exec, execNop]

theorem decode_ones : (decode 0xFFFFFFFF).toOption = none := rfl

/-- Settles O6: the all-zero word is NOP; the all-one word is malformed. -/
theorem floatingCommandPort : Obligations.FloatingCommandPort :=
  ⟨decode_zero, acceptWord_zero, decode_ones, rfl, fun _ => acceptWord_malformed_faults decode_ones⟩

/-! ### Words without effect -/

/-- An output word shows: on its port's trace where its sink is ready, else as the word on offer. -/
theorem State.emit_ne_self {s : State} (hs : s.held = none) (o : Output) : s.emit o ≠ s := by
  intro h
  cases hready : s.sinkReady o with
  | false =>
    rw [State.emit_of_not_ready hready] at h
    simpa [hs] using congrArg State.held h
  | true =>
    rw [State.emit_of_ready hready] at h
    cases o with
    | pixel p => simpa [State.transfer] using congrArg State.pixels h
    | response w => simpa [State.transfer] using congrArg State.responses h

/-- In a frame, with no command in progress, every command but NOP shows an effect: SET and BEGIN are
out of phase, and GET, MAP and PIX make an output word. -/
theorem decode_eq_nop_of_no_effect {w : Word32} {s : State} (hs : s.phase = .busy)
    (hheld : s.held = none) (h : acceptWord w s = .next s) : decode w = .ok .nop := by
  obtain ⟨hf, hb⟩ := s.phase_busy_iff.mp hs
  obtain ⟨t, ht, hcases⟩ := acceptWord_cases w s
  obtain rfl : s = t := by simpa [h] using ht
  rcases hcases with ⟨_, _, hnop | ⟨hfaulted, _⟩⟩ | ⟨k, _, _, heq⟩ | ⟨_, _, _, _, hidle, _⟩ |
    ⟨_, _, hidle, _⟩ | ⟨_, _, _, _, _, heq⟩ | ⟨_, _, _, _, _, _, _, heq⟩ | ⟨_, _, _, _, _, heq⟩
  · exact hnop
  · simp [hf] at hfaulted
  · have hfaulted : s.faulted = true := heq ▸ s.enterFault_faulted k w
    simp [hf] at hfaulted
  · simp [hb] at hidle
  · simp [hb] at hidle
  all_goals exact absurd heq.symm (s.emit_ne_self hheld _)

theorem eq_zero_of_decode_nop {w : Word32} (h : decode w = .ok .nop) : w = 0x00000000 :=
  (encode_of_decode h).symm

/-- Settles O7: an open frame tells every other word from NOP, whose only word is the all-zero one. -/
theorem onlyTheZeroWordNeverActs : Obligations.OnlyTheZeroWordNeverActs := by
  refine ⟨fun w s => ?_, fun w => ⟨fun h => ?_, ?_⟩⟩
  · obtain ⟨t, ht, _⟩ := acceptWord_cases w s
    exact ⟨t, ht⟩
  · have hbusy : State.reset.openFrame.phase = .busy := rfl
    exact eq_zero_of_decode_nop (decode_eq_nop_of_no_effect hbusy rfl (h _))
  · rintro rfl
    exact acceptWord_zero

end Sys2Proof.Machine
end

section
/-! PROOFS. The statements about the function `map` (`40_mapper.md` R91 to R102). -/

namespace Sys2Proof.Machine

/-! ### A range that is not proper -/

/-- Without a proper range `map` is a step at the low bound, whatever the high bound (R93, R99). -/
theorem mapValue_of_not_proper {v lo hi : Int} (h : hi ≤ lo) :
    mapValue v lo hi = if v < lo then 0 else 255 := by
  split
  case isTrue below => exact mapValue_of_lt below
  case isFalse notBelow =>
    rcases h.eq_or_lt with degenerate | reversed
    · exact mapValue_of_eq notBelow degenerate.symm
    · exact mapValue_of_gt notBelow (by omega)

/-- Settles O10: the two clamps, and the step of a range that is not proper. -/
theorem mapClampsAndDegenerateRange : Obligations.MapClampsAndDegenerateRange := fun _ _ _ =>
  ⟨mapValue_of_lt, fun h above => mapValue_of_gt h.not_gt above,
    fun h => mapValue_of_not_proper h.ge⟩

/-- Settles O12: the step of a range that is not proper has no high bound in it. -/
theorem mapOfReversedRangeIsAStep : Obligations.MapOfReversedRangeIsAStep := by
  intro v lo hi hi' h h'
  rw [mapValue_of_not_proper h.le, mapValue_of_not_proper h'.le]
  exact ⟨rfl, rfl⟩

/-! ### The linear path -/

section
variable {v lo hi k : Int}

/-- The output `k` comes from the samples whose scaled offset lies from `k` spans up to
`k + 1` (R102 (c)). -/
theorem mapValue_eq_iff (h : lo ≤ v) (h' : v ≤ hi) (proper : lo < hi) :
    mapValue v lo hi = k ↔
      k * (hi - lo) ≤ 255 * (v - lo) ∧ 255 * (v - lo) < (k + 1) * (hi - lo) := by
  rw [mapValue_linear h h' proper, Int.ediv_eq_iff_of_pos (by omega), add_one_mul]

/-- The integer division of the model is the floor of the rational quotient (R94). -/
theorem mapValue_eq_floor (h : lo ≤ v) (h' : v ≤ hi) (proper : lo < hi) :
    mapValue v lo hi = ⌊(255 * (v - lo) : ℚ) / (hi - lo : ℚ)⌋ := by
  have hspan : 0 ≤ hi - lo := by omega
  calc
    mapValue v lo hi = 255 * (v - lo) / (hi - lo) := mapValue_linear h h' proper
    _ = ⌊((255 * (v - lo) : Int) : ℚ) / ((hi - lo : Int) : ℚ)⌋ := by
      rw [Int.floor_div_cast_of_nonneg hspan, Int.floor_intCast]
    _ = ⌊(255 * (v - lo) : ℚ) / (hi - lo : ℚ)⌋ := by norm_cast

/-- A proper range gives 0 up to its low bound (R91, R101). -/
theorem mapValue_of_le_low (proper : lo < hi) (h : v ≤ lo) : mapValue v lo hi = 0 := by
  rcases h.lt_or_eq with below | rfl
  · exact mapValue_of_lt below
  · rw [mapValue_eq_iff le_rfl proper.le proper]
    omega

/-- A proper range gives 255 from its high bound up (R92, R101). -/
theorem mapValue_of_high_le (proper : lo < hi) (h : hi ≤ v) : mapValue v lo hi = 255 := by
  rcases h.lt_or_eq with above | rfl
  · exact mapValue_of_gt (by omega) above
  · rw [mapValue_eq_iff proper.le le_rfl proper]
    omega

/-- Below its high bound a proper range does not reach 255 (R101). -/
theorem mapValue_le_of_lt_high (h : lo ≤ v) (h' : v < hi) : mapValue v lo hi ≤ 254 := by
  have hspan : 0 < hi - lo := by omega
  rw [mapValue_linear h h'.le (by omega), ← Int.lt_add_one_iff, Int.ediv_lt_iff_lt_mul hspan]
  omega

end

/-- Settles O11: the bounds that make an integer the floor, and the rational floor itself. -/
theorem mapIsTheExactFloor : Obligations.MapIsTheExactFloor := by
  refine ⟨fun v lo hi h h' proper => ?_, by decide, by decide⟩
  obtain ⟨hle, hlt⟩ := (mapValue_eq_iff h h' proper).mp rfl
  exact ⟨hle, hlt, mapValue_eq_floor h h' proper⟩

/-- Settles O13: the two bounds, and what lies below the high one. -/
theorem mapBoundaryValues : Obligations.MapBoundaryValues := fun _ _ proper =>
  ⟨mapValue_of_le_low proper le_rfl, mapValue_of_high_le proper le_rfl,
    fun _ => mapValue_le_of_lt_high⟩

/-! ### Properties that follow -/

/-- `map` is monotone in the sample, for every range (R102 (b)). -/
theorem mapValue_mono {a b lo hi : Int} (h : a ≤ b) : mapValue a lo hi ≤ mapValue b lo hi := by
  by_cases below : a < lo
  · rw [mapValue_of_lt below]
    exact (mapValue_range b lo hi).1
  by_cases above : b > hi
  · rw [mapValue_of_gt (v := b) (by omega) above]
    exact (mapValue_range a lo hi).2
  by_cases degenerate : lo = hi
  · rw [mapValue_of_eq below degenerate, mapValue_of_eq (by omega) degenerate]
  rw [mapValue_linear (by omega) (by omega) (by omega),
    mapValue_linear (by omega) (by omega) (by omega)]
  exact Int.ediv_le_ediv (by omega) (by omega)

/-- A span below 255 steps over the output 254 (R102 (c)). -/
theorem mapValue_ne_of_short_span {v lo hi : Int} (proper : lo < hi) (short : hi - lo < 255)
    (h : lo ≤ v) (h' : v ≤ hi) : mapValue v lo hi ≠ 254 := by
  rw [Ne, mapValue_eq_iff h h' proper]
  omega

/-- Span 1 leaves only the two bounds (R102 (c)). -/
theorem mapValue_span_one (v lo : Int) :
    mapValue v lo (lo + 1) = 0 ∨ mapValue v lo (lo + 1) = 255 := by
  rcases le_or_gt v lo with low | high
  · exact .inl (mapValue_of_le_low (by omega) low)
  · exact .inr (mapValue_of_high_le (by omega) high)

/-- Span 2 leaves one sample between the two bounds (R102 (c)). -/
theorem mapValue_span_two (v lo : Int) :
    mapValue v lo (lo + 2) = 0 ∨ mapValue v lo (lo + 2) = 127 ∨ mapValue v lo (lo + 2) = 255 := by
  have hsample : v ≤ lo ∨ v = lo + 1 ∨ lo + 2 ≤ v := by omega
  rcases hsample with low | rfl | high
  · exact .inl (mapValue_of_le_low (by omega) low)
  · refine .inr (.inl ((mapValue_eq_iff ?_ ?_ ?_).mpr ?_)) <;> omega
  · exact .inr (.inr (mapValue_of_high_le (by omega) high))

/-- Only differences and comparisons of the three arguments enter `map` (R102 (d)). -/
theorem mapValue_shift (v lo hi t : Int) :
    mapValue (v + t) (lo + t) (hi + t) = mapValue v lo hi := by
  simp only [mapValue, gt_iff_lt, add_lt_add_iff_right, add_left_inj, add_sub_add_right_eq_sub]

/-- The range (0, 255) gives its samples back (R102 (e)). -/
theorem mapValue_identity {v : Int} (h : 0 ≤ v) (h' : v ≤ 255) : mapValue v 0 255 = v := by
  rw [mapValue_eq_iff h h' (by decide)]
  omega

/-- Settles O14: clause (c) is the linear path at the sample `lo + d`. -/
theorem mapDerivedProperties : Obligations.MapDerivedProperties := by
  refine ⟨mapValue_range, fun _ _ _ _ => mapValue_mono, fun lo hi d k proper hd hd' _ _ => ?offsets,
    fun _ _ proper short =>
      ⟨254, by decide, by decide, fun _ => mapValue_ne_of_short_span proper short⟩,
    mapValue_span_one, mapValue_span_two, mapValue_shift, fun _ => mapValue_identity⟩
  case offsets =>
    rw [mapValue_eq_iff (by omega) (by omega) proper, add_sub_cancel_left]

end Sys2Proof.Machine
end

section
/-! PROOFS. The statement about the widths of the datapath (`40_mapper.md` R96). -/

namespace Sys2Proof.Machine

/-! ### The tests on words -/

theorem slt_iff_s16_lt {a b : Word16} : a.slt b = true ↔ s16 a < s16 b := by
  rw [BitVec.slt_iff_toInt_lt, s16_eq_toInt, s16_eq_toInt]

/-! ### The intermediates -/

/-- 17 bits hold the difference of two 16-bit samples. -/
theorem sub_signExtend_toInt (a b : Word16) :
    (a.signExtend 17 - b.signExtend 17).toInt = s16 a - s16 b := by
  have ha := s16_range a
  have hb := s16_range b
  rw [BitVec.toInt_sub, BitVec.toInt_signExtend_of_le (by decide),
    BitVec.toInt_signExtend_of_le (by decide), ← s16_eq_toInt, ← s16_eq_toInt]
  exact Int.bmod_eq_of_le (by omega) (by omega)

/-- Where it is not negative, 16 bits hold the difference. -/
theorem distance_toNat {a b : Word16} (h : s16 b ≤ s16 a) :
    ((distance a b).toNat : Int) = s16 a - s16 b := by
  have ha := s16_range a
  have hb := s16_range b
  have hsub := sub_signExtend_toInt a b
  rw [BitVec.toInt_eq_toNat_cond] at hsub
  rw [distance, BitVec.toNat_setWidth]
  split at hsub <;> omega

/-- 24 bits hold 255 times any 16-bit offset. -/
theorem product_toNat (d : Word16) : (product d).toNat = 255 * d.toNat := by
  have hd := d.isLt
  rw [product, BitVec.toNat_sub, BitVec.toNat_shiftLeft, BitVec.toNat_setWidth_of_le (by decide),
    Nat.shiftLeft_eq]
  omega

/-- The quotient of the intermediates is the value of `map`, before it is cut to 8 bits. -/
theorem product_div_distance {v lo hi : Word16} (h : s16 lo ≤ s16 v) (h' : s16 v ≤ s16 hi)
    (proper : s16 lo < s16 hi) :
    (((product (distance v lo)).toNat / (distance hi lo).toNat : Nat) : Int) =
      mapValue (s16 v) (s16 lo) (s16 hi) := by
  rw [mapValue_linear h h' proper, product_toNat, ← distance_toNat h, ← distance_toNat proper.le]
  norm_cast

/-- 8 bits hold the quotient. -/
theorem product_div_distance_le {v lo hi : Word16} (h : s16 lo ≤ s16 v) (h' : s16 v ≤ s16 hi)
    (proper : s16 lo < s16 hi) :
    (product (distance v lo)).toNat / (distance hi lo).toNat ≤ 255 := by
  have hrange := mapValue_range (s16 v) (s16 lo) (s16 hi)
  have hquotient := product_div_distance h h' proper
  omega

/-! ### The datapath on each of its paths -/

section
variable {v lo hi : Word16}

theorem mapDatapath_of_lt (h : s16 v < s16 lo) : mapDatapath v lo hi = 0 := by
  simp [mapDatapath, slt_iff_s16_lt, h]

theorem mapDatapath_of_gt (h : ¬ s16 v < s16 lo) (h' : s16 v > s16 hi) :
    mapDatapath v lo hi = 255 := by
  simp [mapDatapath, slt_iff_s16_lt, h, h']

theorem mapDatapath_of_eq (h : ¬ s16 v < s16 lo) (h' : s16 lo = s16 hi) :
    mapDatapath v lo hi = 255 := by
  obtain rfl := s16_inj.mp h'
  simp [mapDatapath, slt_iff_s16_lt, h]

theorem mapDatapath_linear (h : s16 lo ≤ s16 v) (h' : s16 v ≤ s16 hi) (proper : s16 lo < s16 hi) :
    (mapDatapath v lo hi).toNat = (product (distance v lo)).toNat / (distance hi lo).toNat := by
  have hne : lo ≠ hi := mt s16_inj.mpr proper.ne
  have hquotient := product_div_distance_le h h' proper
  simp only [mapDatapath, slt_iff_s16_lt, h.not_gt, h'.not_gt, beq_iff_eq, hne, if_false]
  rw [BitVec.toNat_setWidth, BitVec.toNat_udiv, BitVec.toNat_setWidth_of_le (by decide)]
  exact Nat.mod_eq_of_lt (Nat.lt_succ_of_le hquotient)

end

/-- The datapath gives the value of `map` on all words: the tests are those of R95 on the signed
readings, and no intermediate overflows (R96). -/
theorem mapDatapath_toNat (v lo hi : Word16) :
    ((mapDatapath v lo hi).toNat : Int) = mapValue (s16 v) (s16 lo) (s16 hi) := by
  by_cases below : s16 v < s16 lo
  · rw [mapDatapath_of_lt below, mapValue_of_lt below]
    rfl
  by_cases above : s16 v > s16 hi
  · rw [mapDatapath_of_gt below above, mapValue_of_gt below above]
    rfl
  by_cases degenerate : s16 lo = s16 hi
  · rw [mapDatapath_of_eq below degenerate, mapValue_of_eq below degenerate]
    rfl
  have h : s16 lo ≤ s16 v := by omega
  have h' : s16 v ≤ s16 hi := by omega
  have proper : s16 lo < s16 hi := by omega
  rw [mapDatapath_linear h h' proper, product_div_distance h h' proper]

/-- Settles O15: the value on all words, and on the linear path each intermediate as an integer. -/
theorem datapathWidthsSuffice : Obligations.DatapathWidthsSuffice := by
  refine ⟨mapDatapath_toNat, fun v lo hi h h' proper => ?_⟩
  have hoffset := distance_toNat h
  have hspan := distance_toNat proper.le
  have hproduct := product_toNat (distance v lo)
  have hwidth := (distance v lo).isLt
  exact ⟨hoffset, hspan, by omega, by omega, hproduct, by omega,
    product_div_distance_le h h' proper⟩

end Sys2Proof.Machine
end

section
/-! PROOFS. The statements about the command MAP (`40_mapper.md` R100, R103). -/

namespace Sys2Proof.Machine

theorem State.not_faulted_of_phase_ne {s : State} (h : s.phase ≠ .faulted) : s.faulted = false := by
  rwa [Ne, s.phase_faulted_iff, Bool.not_eq_true] at h

/-! ### The range of a channel, as GET reads it -/

theorem zeroExtend_inj {a b : Word16} : a.zeroExtend 32 = b.zeroExtend 32 ↔ a = b := by
  rw [← BitVec.toNat_inj, BitVec.toNat_setWidth_of_le (by decide),
    BitVec.toNat_setWidth_of_le (by decide), BitVec.toNat_inj]

/-- The range of channel `c` is `R[2*c]` and `R[2*c + 1]` (`30_encoding.md` R74). -/
theorem State.channelRange_eq_some_iff {s : State} {c : BitVec 4} {rg : ChannelRange}
    (hc : c.toNat ≤ 2) :
    s.channelRange c = some rg ↔
      s.readReg (2 * c) = some (rg.low.zeroExtend 32) ∧
        s.readReg (2 * c + 1) = some (rg.high.zeroExtend 32) := by
  obtain ⟨low, high⟩ := rg
  have hcases : c = 0 ∨ c = 1 ∨ c = 2 := by bv_omega
  rcases hcases with rfl | rfl | rfl <;>
    simp [State.channelRange, State.readReg, zeroExtend_inj]

/-! ### MAP in each phase -/

section
variable {s : State} {c : BitVec 4} {imm : Word16}

/-- In phases IDLE and BUSY, with its sink ready, MAP adds one response and does nothing else. -/
theorem execMap_answers {rg : ChannelRange} (hs : s.phase ≠ .faulted) (hready : s.rReady = true)
    (hrg : s.channelRange c = some rg) :
    exec (.mapSample c imm) s =
      .next { s with responses := s.responses ++ [(rg.output imm).zeroExtend 32] } := by
  rw [execMap_eq (State.not_faulted_of_phase_ne hs) hrg, State.emit_response_of_ready _ hready]

/-- In phase FAULTED MAP is discarded (`60_exceptions.md` R141). -/
theorem execMap_discarded (hs : s.phase = .faulted) : exec (.mapSample c imm) s = .next s :=
  unlessFaulted_of_faulted (s.phase_faulted_iff.mp hs) _

end

/-- The response word holds the output of the channel. -/
theorem ChannelRange.response_toNat (rg : ChannelRange) (imm : Word16) :
    ((rg.output imm).zeroExtend 32).toNat = (rg.output imm).toNat :=
  BitVec.toNat_setWidth_of_le (by decide)

/-- The word of MAP (`30_encoding.md` R71). -/
theorem encode_mapSample_toNat (c : BitVec 4) (imm : Word16) :
    (encode (.mapSample c imm)).toNat = 0x30000000 + c.toNat * 0x01000000 + imm.toNat :=
  commandWord_toNat 3 c imm

/-- `MAP 0, -400` on the range (-1000, 200) answers 127, the example of R103. -/
theorem acceptWord_map_example {s : State} (hs : s.phase ≠ .faulted) (hready : s.rReady = true)
    (hlo : s.lo0 = 0xFC18) (hhi : s.hi0 = 0x00C8) :
    acceptWord 0x3000FE70 s = .next { s with responses := s.responses ++ [0x0000007F] } := by
  have hrg : s.channelRange 0 = some ⟨0xFC18, 0x00C8⟩ := by rw [← hlo, ← hhi]; rfl
  have hrun : acceptWord 0x3000FE70 s = exec (.mapSample 0 0xFE70) s := rfl
  have hword : (ChannelRange.output ⟨0xFC18, 0x00C8⟩ 0xFE70).zeroExtend 32 = 0x0000007F := by decide
  rw [hrun, execMap_answers hs hready hrg, hword]

/-- Settles O16: the response of each phase, the malformed words by R78, and the numbers of R103. -/
theorem mapCommandAnswers : Obligations.MapCommandAnswers := by
  refine ⟨fun c imm lo hi s hc hs hready hlo hhi => ?answer, fun _ _ _ => execMap_discarded,
    fun w s hop hbad => acceptWord_malformed_faults ?malformed, encode_mapSample_toNat,
    fun _ => acceptWord_map_example, by decide, by decide, by decide⟩
  case answer =>
    have hrg : s.channelRange c = some ⟨lo, hi⟩ := (State.channelRange_eq_some_iff hc).mpr ⟨hlo, hhi⟩
    refine ⟨_, _, execMap_answers hs hready hrg, rfl, ?value, ?bound⟩ <;>
      rw [ChannelRange.response_toNat]
    case value => exact ChannelRange.output_toNat ⟨lo, hi⟩ imm
    case bound => exact Nat.le_of_lt_succ (ChannelRange.output ⟨lo, hi⟩ imm).isLt
  case malformed =>
    rw [decode_toOption_eq_none_iff]
    tauto

/-- Settles O17: both states have the same range on the channel, and it alone makes the word. -/
theorem mapAnswerDependsOnItsRangeAlone : Obligations.MapAnswerDependsOnItsRangeAlone := by
  intro c imm s s' hc hs hs' hready hready' hlow hhigh
  obtain ⟨rg, hrg⟩ := Option.isSome_iff_exists.mp ((s.channelRange_isSome_iff c).mpr hc)
  have hrg' : s'.channelRange c = some rg := by
    rwa [State.channelRange_eq_some_iff hc, ← hlow, ← hhigh, ← State.channelRange_eq_some_iff hc]
  exact ⟨_, execMap_answers hs hready hrg, execMap_answers hs' hready' hrg'⟩

end Sys2Proof.Machine
end

section
/-! PROOFS. The statement about the lanes of a pixel (`41_frame.md` R116). -/

namespace Sys2Proof.Machine

/-- The lane of a channel carries the output of that channel's range. -/
theorem State.lane_pixelData {s : State} {c : BitVec 4} {rg : ChannelRange} (imm : Word16)
    (h : s.channelRange c = some rg) : lane (s.pixelData imm) c.toNat = rg.output imm := by
  have hc : c.toNat ≤ 2 := (s.channelRange_isSome_iff c).mp (by rw [h]; rfl)
  have hcases : c = 0 ∨ c = 1 ∨ c = 2 := by bv_omega
  rcases hcases with rfl | rfl | rfl <;> cases h
  · exact s.lane_zero_pixelData imm
  · exact s.lane_one_pixelData imm
  · exact s.lane_two_pixelData imm

/-- Settles O25: the range of channel `c` alone makes lane `c`. -/
theorem lanesDoNotInteract : Obligations.LanesDoNotInteract := by
  intro c rg imm s s' hrg hrg'
  rw [State.lane_pixelData imm hrg, State.lane_pixelData imm hrg']
  exact ⟨rg.output_toNat imm, rfl⟩

end Sys2Proof.Machine
end

section
/-! PROOFS. The statement about BEGIN (`41_frame.md` R111). -/

namespace Sys2Proof.Machine

/-! ### The tests of BEGIN where they pass -/

theorem State.emptyGrid_eq_false {s : State} (hw : s.width ≠ 0) (hh : s.height ≠ 0) :
    s.emptyGrid = false :=
  Bool.eq_false_iff.mpr fun h => (s.emptyGrid_iff.mp h).elim hw hh

theorem State.anyReversed_eq_false {s : State} (h0 : s16 s.lo0 ≤ s16 s.hi0)
    (h1 : s16 s.lo1 ≤ s16 s.hi1) (h2 : s16 s.lo2 ≤ s16 s.hi2) : s.anyReversed = false := by
  rw [Bool.eq_false_iff, Ne, State.anyReversed_iff]
  omega

/-! ### The opened frame -/

/-- Opening a frame writes `STATUS`, `XPOS` and `YPOS` only. -/
theorem State.openFrame_frame (s : State) :
    RegsSameBut [8, 9, 10] s s.openFrame ∧ NoOutput s s.openFrame ∧ SameWorld s s.openFrame :=
  ⟨RegsSameBut.of_config (by simp) (by simp) (by simp) (by simp) (by simp), by simp [NoOutput],
    by simp [SameWorld]⟩

/-! ### The faults of BEGIN, in the order of `60_exceptions.md` R139 -/

section
variable {s : State}

theorem execBegin_seq (hs : s.phase = .busy) :
    exec .beginFrame s = .next (s.enterFault .seq (encode .beginFrame)) := by
  obtain ⟨hf, hb⟩ := s.phase_busy_iff.mp hs
  simp [exec, execBegin, unlessFaulted_of_not_faulted hf, hb, raiseFault]

theorem execBegin_dim (hs : s.phase = .idle) (hg : s.emptyGrid = true) :
    exec .beginFrame s = .next (s.enterFault .dim (encode .beginFrame)) := by
  obtain ⟨hf, hb⟩ := s.phase_idle_iff.mp hs
  simp [exec, execBegin, unlessFaulted_of_not_faulted hf, hb, hg, raiseFault]

theorem execBegin_range (hs : s.phase = .idle) (hg : s.emptyGrid = false)
    (hr : s.anyReversed = true) :
    exec .beginFrame s = .next (s.enterFault .range (encode .beginFrame)) := by
  obtain ⟨hf, hb⟩ := s.phase_idle_iff.mp hs
  simp [exec, execBegin, unlessFaulted_of_not_faulted hf, hb, hg, hr, raiseFault]

/-- In phase FAULTED BEGIN is discarded (R141). -/
theorem execBegin_discarded (hs : s.phase = .faulted) : exec .beginFrame s = .next s :=
  unlessFaulted_of_faulted (s.phase_faulted_iff.mp hs) _

end

/-- Settles O23: the opened frame where every test passes, else the fault of the first that fails. -/
theorem beginOpensAFrame : Obligations.BeginOpensAFrame := by
  refine ⟨fun s hs hw hh h0 h1 h2 => ?opens,
    fun s hs => ⟨_, execBegin_seq hs, .enterFault s _ _⟩,
    fun s hs hdim => ⟨_, execBegin_dim hs (s.emptyGrid_iff.mpr hdim), .enterFault s _ _⟩,
    fun s hs hw hh hrev => ⟨_, execBegin_range hs (State.emptyGrid_eq_false hw hh)
      (s.anyReversed_iff.mpr hrev), .enterFault s _ _⟩,
    fun s => execBegin_discarded, rfl⟩
  case opens =>
    obtain ⟨hf, hb⟩ := s.phase_idle_iff.mp hs
    obtain ⟨hregs, hout, hworld⟩ := s.openFrame_frame
    refine ⟨s.openFrame, execBegin_eq hf hb (State.emptyGrid_eq_false hw hh)
      (State.anyReversed_eq_false h0 h1 h2), s.openFrame_busy, s.openFrame_done,
      s.openFrame_faulted, statusCause_openFrame _, statusReserved_openFrame _, s.openFrame_xpos,
      s.openFrame_ypos, hregs, hout, hworld, fun h => ?_⟩
    rw [s.openFrame_status, h]
    rfl

end Sys2Proof.Machine
end

section
/-! PROOFS. The statement about PIX (`41_frame.md` R112). -/

namespace Sys2Proof.Machine

/-! ### The pixel word -/

/-- The word of three bytes as a number, lane 0 least (`20_memory.md` R57). -/
theorem toNat_append_lanes (o2 o1 o0 : Intensity) :
    (o2 ++ o1 ++ o0).toNat = o2.toNat * 65536 + o1.toNat * 256 + o0.toNat := by
  rw [BitVec.toNat_append, BitVec.toNat_append, ← Nat.shiftLeft_add_eq_or_of_lt o1.isLt,
    ← Nat.shiftLeft_add_eq_or_of_lt o0.isLt, Nat.shiftLeft_eq, Nat.shiftLeft_eq]
  omega

section
variable (s : State) (imm : Word16)

/-- The data of a pixel as a number: the three mapped outputs in their lanes. -/
theorem State.pixelData_toNat :
    ((s.pixelData imm).toNat : Int) = mapValue (s16 imm) (s16 s.lo2) (s16 s.hi2) * 65536 +
      mapValue (s16 imm) (s16 s.lo1) (s16 s.hi1) * 256 +
      mapValue (s16 imm) (s16 s.lo0) (s16 s.hi0) := by
  rw [State.pixelData, toNat_append_lanes]
  push_cast
  simp only [ChannelRange.output_toNat]

theorem State.pixelOf_eol_iff : (s.pixelOf imm).eol = true ↔ u16 s.xpos = u16 s.width - 1 :=
  decide_eq_true_iff

theorem State.pixelOf_eof_iff :
    (s.pixelOf imm).eof = true ↔ (s.pixelOf imm).eol = true ∧ u16 s.ypos = u16 s.height - 1 := by
  simp [State.pixelOf, State.atFrameEnd]

end

/-! ### The move to the next place -/

section
variable (s : State) (eol eof : Bool)

@[simp] theorem State.advance_eof : s.advance eol true = s.closeFrame := rfl

@[simp] theorem State.advance_eol : s.advance true false = s.nextRow := rfl

@[simp] theorem State.advance_within_row : s.advance false false = s.nextColumn := rfl

@[simp] theorem State.advance_status_of_open : (s.advance eol false).status = s.status := by
  cases eol <;> simp

/-- Only `BUSY` and `DONE` of `STATUS` may change. -/
theorem State.advance_keeps_fault_fields :
    (s.advance eol eof).faulted = s.faulted ∧
      statusCause (s.advance eol eof).status = statusCause s.status ∧
      statusReserved (s.advance eol eof).status = statusReserved s.status := by
  cases eof
  case true => simp
  case false => simp [State.faulted]

end

/-- A transferred pixel: at most `STATUS`, `XPOS` and `YPOS` change, and no response is made. -/
theorem State.advance_appendPixel_frame (s : State) (p : Pixel) (eol eof : Bool) :
    RegsSameBut [8, 9, 10] s ((s.appendPixel p).advance eol eof) ∧
      ((s.appendPixel p).advance eol eof).responses = s.responses ∧
      ((s.appendPixel p).advance eol eof).held = s.held ∧
      SameWorld s ((s.appendPixel p).advance eol eof) :=
  ⟨RegsSameBut.of_config (by simp) (by simp) (by simp) (by simp) (by simp), by simp, by simp,
    by simp [SameWorld]⟩

/-! ### PIX in each phase -/

section
variable {s : State} {imm : Word16}

/-- In phase BUSY, with its sink ready, PIX adds its pixel and advances by the pixel's marks. -/
theorem execPix_advances (hs : s.phase = .busy) (hready : s.pReady = true) :
    exec (.pix imm) s = .next ((s.appendPixel (s.pixelOf imm)).advance (s.pixelOf imm).eol
      (s.pixelOf imm).eof) := by
  obtain ⟨hf, hb⟩ := s.phase_busy_iff.mp hs
  rw [execPix_eq hf hb, State.emit_pixel_of_ready _ hready]

theorem execPix_seq (hs : s.phase = .idle) :
    exec (.pix imm) s = .next (s.enterFault .seq (encode (.pix imm))) := by
  obtain ⟨hf, hb⟩ := s.phase_idle_iff.mp hs
  simp [exec, execPix, unlessFaulted_of_not_faulted hf, hb, raiseFault]

/-- In phase FAULTED PIX is discarded (`60_exceptions.md` R141). -/
theorem execPix_discarded (hs : s.phase = .faulted) : exec (.pix imm) s = .next s :=
  unlessFaulted_of_faulted (s.phase_faulted_iff.mp hs) _

end

/-- The word of PIX (`30_encoding.md` R71). -/
theorem encode_pix_toNat (imm : Word16) : (encode (.pix imm)).toNat = 0x50000000 + imm.toNat :=
  commandWord_toNat 5 0 imm

/-- Settles O24: the pixel at the current position, and the move that its two marks name. -/
theorem pixEmitsOnePixelAndAdvances : Obligations.PixEmitsOnePixelAndAdvances := by
  refine ⟨fun imm s hs hready => ?pixel, fun imm s hs => ⟨_, execPix_seq hs, .enterFault s _ _⟩,
    fun imm s => execPix_discarded, encode_pix_toNat,
    fun w s hop hbad => acceptWord_malformed_faults ?malformed, ?vector⟩
  case pixel =>
    obtain ⟨hfault, hcause, hreserved⟩ := (s.appendPixel (s.pixelOf imm)).advance_keeps_fault_fields
      (s.pixelOf imm).eol (s.pixelOf imm).eof
    refine ⟨s.pixelOf imm, _, execPix_advances hs hready, by simp, s.pixelData_toNat imm,
      s.pixelOf_eol_iff imm, s.pixelOf_eof_iff imm, ?closes, ?stays_open, ?next_row, ?next_column,
      hfault, hcause, hreserved, s.advance_appendPixel_frame ..⟩
    case closes => intro heof; simp [heof]
    case stays_open => intro heof; simp [heof]
    case next_row => intro heof heol; simp [heof, heol]
    case next_column => intro heof heol; simp [heof, heol]
  case malformed =>
    rw [decode_toOption_eq_none_iff]
    tauto
  case vector =>
    intro s hs hready hst hlo0 hhi0 hlo1 hhi1 hlo2 hhi2 hw hh hx hy
    have hrun : acceptWord 0x50000000 s = exec (.pix 0) s := rfl
    have hpixel : s.pixelOf 0 = ⟨0xD4D4D4, true, true⟩ := by
      rw [State.pixelOf, State.pixelData, State.atFrameEnd, State.atRowEnd, hlo0, hhi0, hlo1, hhi1,
        hlo2, hhi2, hw, hh, hx, hy]
      decide
    rw [hrun, execPix_advances hs hready, hpixel]
    refine ⟨_, rfl, ?_, rfl⟩
    rw [State.advance_eof, State.closeFrame_status, State.appendPixel_status, hst]
    rfl

end Sys2Proof.Machine
end

section
/-! PROOFS. The statement about NOP (`42_config_access.md` R125). -/

namespace Sys2Proof.Machine

/-- The words with `op` 0 are NOP's one word and malformed words (R125). -/
theorem decode_eq_none_of_op_zero {w : Word32} (hop : opField w = 0) (hw : w ≠ 0) :
    (decode w).toOption = none := by
  rw [decode_toOption_eq_none_iff_not_exists]
  rintro ⟨i, hi⟩
  obtain ⟨_, _, rfl⟩ : rField w = 0 ∧ immField w = 0 ∧ i = .nop := by
    simpa [hop] using (decode_ok hi).2
  exact hw (eq_zero_of_decode_nop hi)

/-- Settles O18: NOP has no effect by its meaning, and every other word with `op` 0 is malformed. -/
theorem nopHasNoEffect : Obligations.NopHasNoEffect :=
  ⟨fun _ => rfl, rfl, fun _ _ hop hw =>
    acceptWord_malformed_faults (decode_eq_none_of_op_zero hop hw)⟩

end Sys2Proof.Machine
end

section
/-! PROOFS. The statement about SET (`42_config_access.md` R126). -/

namespace Sys2Proof.Machine

section
variable {s : State} {r : BitVec 4} {imm : Word16}

theorem State.exists_writeReg (s : State) (imm : Word16) (hr : r.toNat ≤ 7) :
    ∃ t, s.writeReg r imm = some t :=
  Option.isSome_iff_exists.mp ((s.writeReg_isSome_iff r imm).mpr hr)

/-- Writing a register leaves the other registers, the output and the environment alone. -/
theorem State.writeReg_changes_one {t : State} (h : s.writeReg r imm = some t) :
    RegsSameBut [r.toNat] s t ∧ NoOutput s t ∧ SameWorld s t := by
  obtain ⟨_, _, _, _, hheld, hpixels, hresponses, hpReady, hrReady, henv⟩ := s.writeReg_frame h
  refine ⟨fun r' hr' => s.writeReg_readReg_other h ?_, ⟨hpixels, hresponses, hheld⟩,
    hpReady, hrReady, henv⟩
  simpa using hr'

/-! ### SET in each phase -/

theorem execSet_writes {t : State} (hs : s.phase = .idle) (h : s.writeReg r imm = some t) :
    exec (.setReg r imm) s = .next t := by
  obtain ⟨hf, hb⟩ := s.phase_idle_iff.mp hs
  exact execSet_eq hf hb h

theorem execSet_seq (hs : s.phase = .busy) (hr : r.toNat ≤ 7) :
    exec (.setReg r imm) s = .next (s.enterFault .seq (encode (.setReg r imm))) := by
  obtain ⟨hf, hb⟩ := s.phase_busy_iff.mp hs
  obtain ⟨t, ht⟩ := s.exists_writeReg imm hr
  simp [exec, execSet, unlessFaulted_of_not_faulted hf, hb, ht, raiseFault]

/-- In phase FAULTED SET is discarded (`60_exceptions.md` R141). -/
theorem execSet_discarded (hs : s.phase = .faulted) : exec (.setReg r imm) s = .next s :=
  unlessFaulted_of_faulted (s.phase_faulted_iff.mp hs) _

end

/-- The word of SET (`30_encoding.md` R71). -/
theorem encode_setReg_toNat (r : BitVec 4) (imm : Word16) :
    (encode (.setReg r imm)).toNat = 0x10000000 + r.toNat * 0x01000000 + imm.toNat :=
  commandWord_toNat 1 r imm

/-- Settles O19: one written register in phase IDLE, the other phases by their rules, the malformed
words by R78, and the example of R126. -/
theorem setWritesOneRegister : Obligations.SetWritesOneRegister := by
  refine ⟨fun r imm s hr hs => ?writes,
    fun r imm s hr hs => ⟨_, execSet_seq hs hr, .enterFault s _ _⟩,
    fun _ _ _ => execSet_discarded, fun w s hop hbad => acceptWord_malformed_faults ?malformed,
    encode_setReg_toNat, fun s hs => ?vector, by decide⟩
  case writes =>
    obtain ⟨t, ht⟩ := s.exists_writeReg imm hr
    exact ⟨t, execSet_writes hs ht, s.writeReg_readReg_self ht, State.writeReg_changes_one ht⟩
  case malformed =>
    rw [decode_toOption_eq_none_iff]
    tauto
  case vector =>
    have hrun : acceptWord 0x1000FC18 s = exec (.setReg 0 0xFC18) s := rfl
    rw [hrun, execSet_writes hs rfl]

end Sys2Proof.Machine
end

section
/-! PROOFS. The statement about GET (`42_config_access.md` R127). -/

namespace Sys2Proof.Machine

/-- With its sink ready, GET adds one response in every phase and does nothing else. -/
theorem execGet_answers {s : State} {r : BitVec 4} {w : Word32} (hready : s.rReady = true)
    (h : s.readReg r = some w) :
    exec (.getReg r) s = .next { s with responses := s.responses ++ [w] } := by
  rw [execGet_eq h, State.emit_response_of_ready _ hready]

/-- Every register but `FWORD` is a 16-bit word, read zero-extended. -/
theorem State.readReg_eq_zeroExtend (s : State) {r : BitVec 4} (hr : r.toNat ≤ 10) :
    ∃ v : Word16, s.readReg r = some (v.zeroExtend 32) := by
  rw [State.readReg]
  interval_cases r.toNat <;> exact ⟨_, rfl⟩

theorem State.readReg_toNat_le {s : State} {r : BitVec 4} {w : Word32} (hr : r.toNat ≤ 10)
    (h : s.readReg r = some w) : w.toNat ≤ 0x0000FFFF := by
  obtain ⟨v, hv⟩ := s.readReg_eq_zeroExtend hr
  obtain rfl : v.zeroExtend 32 = w := Option.some.inj (hv.symm.trans h)
  rw [BitVec.toNat_setWidth_of_le (by decide)]
  exact Nat.le_of_lt_succ v.isLt

/-- The word of GET (`30_encoding.md` R71). -/
theorem encode_getReg_toNat (r : BitVec 4) :
    (encode (.getReg r)).toNat = 0x20000000 + r.toNat * 0x01000000 := by
  rw [encode, commandWord_toNat]
  simp

/-- Settles O20: GET answers what each register reads as, the malformed words go by R78, and the
example of R127 is GET of `HI0`. -/
theorem getAnswersTheRegister : Obligations.GetAnswersTheRegister := by
  refine ⟨fun s hready => ?registers, fun _ _ _ => State.readReg_toNat_le,
    fun w s hop hbad => ?malformed, encode_getReg_toNat, fun s hready hhi => ?vector⟩
  case registers =>
    refine ⟨?_, ?_, ?_, ?_, ?_, ?_, ?_, ?_, ?_, ?_, ?_, ?_⟩ <;> exact execGet_answers hready rfl
  case malformed =>
    have hmalformed : (decode w).toOption = none := by
      rw [decode_toOption_eq_none_iff]
      tauto
    exact ⟨acceptWord_malformed_faults hmalformed, acceptWord_malformed_discarded hmalformed⟩
  case vector =>
    have hrun : acceptWord 0x21000000 s = exec (.getReg 1) s := rfl
    have hword : s.readReg 1 = some 0x000000C8 := by
      rw [show s.readReg 1 = some (s.hi0.zeroExtend 32) from rfl, hhi]
      rfl
    rw [hrun, execGet_answers hready hword]

end Sys2Proof.Machine
end

section
/-! PROOFS. The statements about taking a fault and about phase FAULTED (`60_exceptions.md` R135 to
R141). -/

namespace Sys2Proof.Machine

/-! ### The fault a word raises -/

/-- Settles O30: raising a fault is fault entry, which does what R140 says from any state. -/
theorem faultEntryWritesItsRecordOnly : Obligations.FaultEntryWritesItsRecordOnly :=
  fun k w s => ⟨s.enterFault k w, rfl, .enterFault s k w⟩

/-- A word to which the table and the priority give a cause is fault entry and nothing else. -/
theorem acceptWord_of_faultOf {w : Word32} {s : State} {k : Cause} (h : faultOf w s = some k) :
    acceptWord w s = .next (s.enterFault k w) := by
  obtain ⟨t, ht, hcases⟩ := acceptWord_cases w s
  rcases hcases with ⟨hnone, _⟩ | ⟨k', hk', _, rfl⟩ | ⟨_, _, hnone, _⟩ | ⟨hnone, _⟩ |
    ⟨_, _, hnone, _⟩ | ⟨_, _, _, hnone, _⟩ | ⟨_, hnone, _⟩
  case inr.inl =>
    obtain rfl : k = k' := Option.some.inj (h.symm.trans hk')
    exact ht
  all_goals simp [h] at hnone

/-! ### What leaves the fault record alone -/

/-- `FAULT`, `FWORD` and `CAUSE` are in `t` as in `s`. -/
def SameFaultRecord (s t : State) : Prop :=
  t.faulted = s.faulted ∧ t.fword = s.fword ∧ statusCause t.status = statusCause s.status

theorem SameFaultRecord.of_fields {s t : State} (hst : t.status = s.status)
    (hfw : t.fword = s.fword) : SameFaultRecord s t :=
  ⟨congrArg statusFault hst, hfw, congrArg statusCause hst⟩

theorem State.sameFaultRecord_openFrame (s : State) : SameFaultRecord s s.openFrame :=
  ⟨s.openFrame_faulted, s.openFrame_fword, statusCause_openFrame _⟩

/-- An output word, taken or waiting, is no fault: of `STATUS` a PIX writes only `BUSY` and `DONE`. -/
theorem State.sameFaultRecord_emit (s : State) (o : Output) : SameFaultRecord s (s.emit o) := by
  cases hready : s.sinkReady o with
  | false =>
    rw [State.emit_of_not_ready hready]
    exact .of_fields rfl rfl
  | true =>
    rw [State.emit_of_ready hready]
    cases o with
    | pixel p =>
      obtain ⟨hfault, hcause, _⟩ := (s.appendPixel p).advance_keeps_fault_fields p.eol p.eof
      exact ⟨hfault, s.transfer_fword (.pixel p), hcause⟩
    | response v => exact .of_fields rfl rfl

/-- A word that raises no fault leaves the fault record as it was, in every phase. -/
theorem acceptWord_of_faultOf_none {w : Word32} {s : State} (h : faultOf w s = none) :
    ∃ t, acceptWord w s = .next t ∧ SameFaultRecord s t := by
  obtain ⟨t, ht, hcases⟩ := acceptWord_cases w s
  refine ⟨t, ht, ?_⟩
  rcases hcases with ⟨_, rfl, _⟩ | ⟨k, hk, _⟩ | ⟨r, imm, _, _, _, _, hwrite⟩ |
    ⟨_, _, _, _, _, _, _, rfl⟩ | ⟨_, _, _, _, _, rfl⟩ | ⟨_, _, _, _, _, _, _, rfl⟩ |
    ⟨_, _, _, _, _, rfl⟩
  · exact .of_fields rfl rfl
  · simp [h] at hk
  · obtain ⟨hstatus, _, _, hfword, _⟩ := s.writeReg_frame hwrite
    exact .of_fields hstatus hfword
  · exact s.sameFaultRecord_openFrame
  all_goals exact s.sameFaultRecord_emit _

/-- Settles O31: with a cause the word is fault entry; without one no effect touches the record. -/
theorem eachWordRaisesItsFaultAndNoOther : Obligations.EachWordRaisesItsFaultAndNoOther :=
  ⟨fun w s k h => ⟨s.enterFault k w, acceptWord_of_faultOf h, .enterFault s k w⟩,
    fun _ _ => acceptWord_of_faultOf_none⟩

/-! ### Words in phase FAULTED -/

/-- A response, taken or waiting, changes no register and makes no pixel. -/
theorem State.emit_response_frame (s : State) (v : Word32) :
    RegsSame s (s.emit (.response v)) ∧ (s.emit (.response v)).pixels = s.pixels := by
  cases hready : s.rReady with
  | false =>
    rw [State.emit_response_of_not_ready v hready]
    exact ⟨fun _ _ => rfl, rfl⟩
  | true =>
    rw [State.emit_response_of_ready v hready]
    exact ⟨fun _ _ => rfl, rfl⟩

section
variable {w : Word32} {s : State}

/-- In every phase a well-formed GET puts the word of its register out, and only that. -/
theorem acceptWord_getReg {r : BitVec 4} (hd : decode w = .ok (.getReg r)) :
    ∃ v, s.readReg r = some v ∧ acceptWord w s = .next (s.emit (.response v)) := by
  have hr : r.toNat ≤ 11 := by
    obtain ⟨_, _, hr, _, rfl⟩ : zField w = 0 ∧ opField w = 2 ∧ (rField w).toNat ≤ 11 ∧
        immField w = 0 ∧ r = rField w := by simpa using decode_ok hd
    exact hr
  obtain ⟨v, hv⟩ := Option.isSome_iff_exists.mp ((s.readReg_isSome_iff r).mpr hr)
  refine ⟨v, hv, ?_⟩
  rw [acceptWord, hd]
  exact execGet_eq hv

/-- In phase FAULTED a word other than GET, NOP among them, leaves the state as it is. -/
theorem acceptWord_faulted_of_not_get (hs : s.phase = .faulted)
    (hget : ∀ r, decode w ≠ .ok (.getReg r)) : acceptWord w s = .next s := by
  cases hd : decode w with
  | error e => exact acceptWord_malformed_discarded (by rw [hd]; rfl) hs
  | ok i =>
    rw [acceptWord, hd]
    cases i with
    | nop => rfl
    | setReg r imm => exact execSet_discarded hs
    | getReg r => exact absurd hd (hget r)
    | mapSample c imm => exact execMap_discarded hs
    | beginFrame => exact execBegin_discarded hs
    | pix imm => exact execPix_discarded hs

/-- In phase FAULTED no word changes a register or makes a pixel. -/
theorem acceptWord_faulted_frame (w : Word32) (hs : s.phase = .faulted) :
    ∃ t, acceptWord w s = .next t ∧ RegsSame s t ∧ t.pixels = s.pixels := by
  by_cases hget : ∃ r, decode w = .ok (.getReg r)
  · obtain ⟨r, hd⟩ := hget
    obtain ⟨v, _, hrun⟩ := acceptWord_getReg (s := s) hd
    exact ⟨_, hrun, s.emit_response_frame v⟩
  · exact ⟨s, acceptWord_faulted_of_not_get hs (not_exists.mp hget), fun _ _ => rfl, rfl⟩

end

/-- Settles O32: GET is the one word that does anything in phase FAULTED, and it only answers. -/
theorem faultedBlockRunsOnlyNopAndGet : Obligations.FaultedBlockRunsOnlyNopAndGet := by
  refine fun w s hs => ⟨fun hnop => ?nop, fun r hget hready => ?get,
    fun _ => acceptWord_faulted_of_not_get hs, acceptWord_faulted_frame w hs⟩
  case nop => exact acceptWord_faulted_of_not_get hs fun r => by simp [hnop]
  case get =>
    obtain ⟨v, hv, hrun⟩ := acceptWord_getReg (s := s) hget
    exact ⟨v, hv, by rw [hrun, State.emit_response_of_ready v hready]⟩

end Sys2Proof.Machine
end

section
/-! PROOFS. The statements about decoder and encoder, the table decoder, and what accepting a
command's word does (`30_encoding.md` R70 to R78). -/

namespace Sys2Proof

/-! ### Decoding and encoding undo each other -/

/-- The decoder answers only commands with operands in range (R71, R76). -/
theorem wellFormed_of_decode {w : Word32} {i : Instr} (h : decode w = .ok i) :
    i.wellFormed = true := by
  rcases (decode_ok h).2 with ⟨_, _, _, rfl⟩ | ⟨_, hr, rfl⟩ | ⟨_, hr, _, rfl⟩ | ⟨_, hc, rfl⟩ |
      ⟨_, _, _, rfl⟩ | ⟨_, _, rfl⟩ <;>
    simp [Instr.wellFormed, *]

/-- The word of a well-formed command carries the fields that the decoder reads back (R71). -/
theorem decode_encode {i : Instr} (h : i.wellFormed = true) : decode (encode i) = .ok i := by
  rw [decode_ok_iff]
  cases i with
  | nop | beginFrame | pix imm => simp [encode]
  | setReg r imm | getReg r | mapSample c imm => simpa [encode, Instr.wellFormed] using h

/-- Settles O1: what decodes is well formed and its own encoding, and a well-formed command's word
decodes to it. -/
theorem decodeEncodeAgree : Obligations.DecodeEncodeAgree := by
  refine fun w i => ⟨fun h => ⟨wellFormed_of_decode h, Machine.encode_of_decode h⟩, ?_⟩
  rintro ⟨hwf, rfl⟩
  exact decode_encode hwf

/-- Settles O8: each word by evaluation of the decoder. -/
theorem sampleWordsDecode : Obligations.SampleWordsDecode :=
  ⟨rfl, rfl, rfl, rfl, rfl, rfl, rfl, rfl, rfl, rfl⟩

/-! ### The decoder of the table of masks -/

/-- Settles O4: the row found, if any, is one that admits the word, and a row admits exactly the
words that decode to its command. -/
theorem tableDecoderIsTheDecoder : Obligations.TableDecoderIsTheDecoder := by
  intro w
  cases hfind : opcodeTable.find? (·.admits w) with
  | some row =>
    have hrow : row ∈ opcodeTable := List.mem_of_find?_eq_some hfind
    have hadmits : row.admits w = true := List.find?_some (p := (TableRow.admits · w)) hfind
    have hdecode := (admits_iff_decode hrow w).mp hadmits
    rw [decodeByTable, hfind, hdecode, toOption_ok, Option.map_some]
  | none =>
    have hnone : ¬ (decode w).toOption.isSome = true := by
      rw [decode_isSome_iff]
      rintro ⟨row, hrow, hadmits⟩
      exact List.find?_eq_none.mp hfind row hrow hadmits
    rw [decodeByTable, hfind, Option.not_isSome_iff_eq_none.mp hnone, Option.map_none]

end Sys2Proof

namespace Sys2Proof.Machine

/-! ### Presenting the word of any command -/

/-- An operand that no encoding may carry makes a malformed word (R78 (c)). -/
theorem decode_encode_eq_none {i : Instr} (h : i.wellFormed = false) :
    (decode (encode i)).toOption = none := by
  rw [decode_toOption_eq_none_iff]
  cases i <;> simp [encode, Instr.wellFormed] at h ⊢ <;> omega

/-- The meaning of a command with such an operand is that of a malformed word (log entry 8). -/
theorem exec_of_not_wellFormed {i : Instr} (s : State) (h : i.wellFormed = false) :
    exec i s = runMalformed (encode i) s := by
  cases i with
  | nop => simp [Instr.wellFormed] at h
  | setReg r imm =>
    have hr : s.writeReg r imm = none := by
      rw [← Option.not_isSome_iff_eq_none, s.writeReg_isSome_iff]
      simpa [Instr.wellFormed] using h
    simp [exec, execSet, hr, runMalformed]
  | getReg r =>
    have hr : s.readReg r = none := by
      rw [← Option.not_isSome_iff_eq_none, s.readReg_isSome_iff]
      simpa [Instr.wellFormed] using h
    simp [exec, execGet, hr]
  | mapSample c imm =>
    have hc : s.channelRange c = none := by
      rw [← Option.not_isSome_iff_eq_none, s.channelRange_isSome_iff]
      simpa [Instr.wellFormed] using h
    simp [exec, execMap, hc, runMalformed]
  | beginFrame => simp [Instr.wellFormed] at h
  | pix imm => simp [Instr.wellFormed] at h

theorem acceptWord_of_decode {w : Word32} {i : Instr} (h : decode w = .ok i) (s : State) :
    acceptWord w s = exec i s := by
  rw [acceptWord, h]

theorem acceptWord_encode (i : Instr) (s : State) : acceptWord (encode i) s = exec i s := by
  cases hwf : i.wellFormed with
  | true => exact acceptWord_of_decode (decode_encode hwf) s
  | false =>
    rw [acceptWord_of_malformed (decode_encode_eq_none hwf), exec_of_not_wellFormed s hwf]

/-- Settles O46: a well-formed command's word decodes to it, and any other command means what its
malformed word does. -/
theorem commandWordRunsAsItsCommand : Obligations.CommandWordRunsAsItsCommand := acceptWord_encode

end Sys2Proof.Machine
end

section
/-! PROOFS. The statement about the signed reading (`00_scope.md` R11). -/

namespace Sys2Proof.Machine

theorem w16_toNat (i : Int) : ((w16 i).toNat : Int) = i % 65536 := by
  rw [w16, BitVec.toNat_ofNat]
  omega

theorem s16_w16 {i : Int} (h : -32768 ≤ i) (h' : i ≤ 32767) : s16 (w16 i) = i := by
  have hw := w16_toNat i
  rw [s16]
  split <;> omega

/-- Both readings of a word are the word's number mod 2^16, so either leads back to the word. -/
theorem w16_eq_of_emod {i : Int} {w : Word16} (h : i % 65536 = w.toNat) : w16 i = w := by
  have hw := w16_toNat i
  apply BitVec.eq_of_toNat_eq
  omega

theorem w16_s16 (w : Word16) : w16 (s16 w) = w := by
  have hw := w.isLt
  apply w16_eq_of_emod
  rw [s16]
  split <;> omega

theorem w16_u16 (w : Word16) : w16 (u16 w) = w := by
  have hw := w.isLt
  apply w16_eq_of_emod
  rw [u16]
  omega

/-- Settles O9: `W16` is the remainder mod 2^16, and the readings are integers of that remainder. -/
theorem signedReadingUndoesEncoding : Obligations.SignedReadingUndoesEncoding :=
  ⟨s16_range, fun _ => s16_w16, fun i _ _ => w16_toNat i, fun w => ⟨w16_s16 w, w16_u16 w⟩⟩

end Sys2Proof.Machine
end

section
/-! PROOFS. The statements about the assembler (`30_encoding.md` R81, R82). -/

namespace Sys2Proof.Machine

/-! ### Immediates and SET lines -/

section
variable {i : Int} {r : Nat}

theorem asmImm_eq_some (h : -32768 ≤ i) (h' : i ≤ 65535) : asmImm i = some (w16 i) :=
  if_pos ⟨h, h'⟩

theorem asmImm_eq_none_iff : asmImm i = none ↔ i < -32768 ∨ 65535 < i := by
  rw [asmImm, ite_eq_right_iff]
  simp
  omega

theorem asmSet_eq_none_iff : asmSet r i = none ↔ 7 < r ∨ i < -32768 ∨ 65535 < i := by
  rw [asmSet, ite_eq_right_iff, Option.map_eq_none_iff, asmImm_eq_none_iff]
  omega

end

/-- The number that a line with the register or channel `r` writes is a command word (R70). -/
theorem ofNat_eq_commandWord {n r : Nat} {imm : Word16} (op : BitVec 4) (hr : r < 16)
    (hn : n = op.toNat * 2 ^ 28 + r * 2 ^ 24 + imm.toNat) :
    BitVec.ofNat 32 n = commandWord op (BitVec.ofNat 4 r) imm := by
  rw [commandWord, BitVec.toNat_ofNat, Nat.mod_eq_of_lt hr, hn]

/-! ### The word of each line -/

section
variable {i : Int} {r : Nat}

theorem assemble_set (hr : r ≤ 7) (h : -32768 ≤ i) (h' : i ≤ 65535) :
    assemble (.set r i) = some [encode (.setReg (BitVec.ofNat 4 r) (w16 i))] := by
  rw [assemble, asmSet, if_pos hr, asmImm_eq_some h h']
  exact congrArg (some [·]) (ofNat_eq_commandWord 1 (by omega) rfl)

theorem assemble_get (hr : r ≤ 11) :
    assemble (.get r) = some [encode (.getReg (BitVec.ofNat 4 r))] := by
  rw [assemble, if_pos hr]
  exact congrArg (some [·]) (ofNat_eq_commandWord (imm := 0) 2 (by omega) (Nat.add_zero _).symm)

theorem assemble_map (hr : r ≤ 2) (h : -32768 ≤ i) (h' : i ≤ 65535) :
    assemble (.map r i) = some [encode (.mapSample (BitVec.ofNat 4 r) (w16 i))] := by
  rw [assemble, if_pos hr, asmImm_eq_some h h']
  exact congrArg (some [·]) (ofNat_eq_commandWord 3 (by omega) rfl)

theorem assemble_pix (h : -32768 ≤ i) (h' : i ≤ 65535) :
    assemble (.pix i) = some [encode (.pix (w16 i))] := by
  rw [assemble, asmImm_eq_some h h']
  exact congrArg (some [·]) (ofNat_eq_commandWord (r := 0) 5 (by decide) rfl)

/-- A register or channel in range is well formed in the word's field too. -/
theorem ofNat_toNat_le {n : Nat} (hn : n < 16) (h : r ≤ n) : (BitVec.ofNat 4 r).toNat ≤ n := by
  rwa [BitVec.toNat_ofNat, Nat.mod_eq_of_lt (by omega)]

end

/-- Settles O52: the line's word is the encoding of a well-formed command; outside a range the
register, channel or immediate is refused. -/
theorem assemblerEmitsTheCommandsWord : Obligations.AssemblerEmitsTheCommandsWord := by
  refine ⟨⟨_, rfl, rfl⟩, ⟨_, rfl, rfl⟩,
    fun r i hr h h' => ⟨_, assemble_set hr h h', decode_encode ?set⟩,
    fun r hr => ⟨_, assemble_get hr, decode_encode ?get⟩,
    fun c i hc h h' => ⟨_, assemble_map hc h h', decode_encode ?map⟩,
    fun i h h' => ⟨_, assemble_pix h h', decode_encode rfl⟩,
    fun r i h => ?setRefused, fun r h => ?getRefused, fun c i h => ?mapRefused,
    fun i h => ?pixRefused⟩
  case set => exact decide_eq_true (ofNat_toNat_le (by decide) hr)
  case get => exact decide_eq_true (ofNat_toNat_le (by decide) hr)
  case map => exact decide_eq_true (ofNat_toNat_le (by decide) hc)
  case setRefused => rw [assemble, asmSet_eq_none_iff.mpr h, Option.map_none]
  case getRefused => rw [assemble, if_neg (by omega)]
  case mapRefused =>
    rw [assemble, ite_eq_right_iff, Option.map_eq_none_iff, asmImm_eq_none_iff]
    omega
  case pixRefused => rw [assemble, asmImm_eq_none_iff.mpr h, Option.map_none]

/-! ### Pseudo-instructions -/

/-- A SET line gives the one word of `asmSet`. -/
theorem assemble_set_eq_some {r : Nat} {i : Int} {l : List Word32}
    (h : assemble (.set r i) = some l) : ∃ w, asmSet r i = some w ∧ l = [w] := by
  obtain ⟨w, hw, rfl⟩ := Option.map_eq_some_iff.mp h
  exact ⟨w, hw, rfl⟩

/-- Settles O53: each pseudo-instruction is assembled by the `asmSet` of its SET lines. -/
theorem pseudoInstructionsExpand : Obligations.PseudoInstructionsExpand := by
  refine ⟨fun c i hc => ?one, fun c lo hi a b hc ha hb => ?range,
    fun lo hi a b d ha hb hd => ?ranges, fun w h a b hw _ hh _ ha hb => ?dim,
    fun w h hout => ?refused⟩
  case one => simp only [assemble, if_pos hc, and_self]
  case range =>
    obtain ⟨wa, hwa, rfl⟩ := assemble_set_eq_some ha
    obtain ⟨wb, hwb, rfl⟩ := assemble_set_eq_some hb
    simp [assemble, asmRange, hc, hwa, hwb]
  case ranges =>
    simp only [assemble] at ha hb hd ⊢
    simp [ha, hb, hd]
  case dim =>
    obtain ⟨wa, hwa, rfl⟩ := assemble_set_eq_some ha
    obtain ⟨wb, hwb, rfl⟩ := assemble_set_eq_some hb
    simp [assemble, hw, hh, hwa, hwb]
  case refused =>
    rw [assemble, ite_eq_right_iff]
    rintro ⟨hw, hh⟩
    by_cases hw' : 65535 < w
    · simp [asmSet_eq_none_iff.mpr (.inr (.inr hw'))]
    · have hset : asmSet 7 h = none := asmSet_eq_none_iff.mpr (by omega)
      cases asmSet 6 w <;> simp [hset]

end Sys2Proof.Machine
end

section
/-! PROOFS. What the ports are to a command, and the statements about an output word that waits for
its sink (`20_memory.md` R53 to R55, R65). -/

namespace Sys2Proof.Machine

/-! ### A state with other ports -/

/-- `s` with its ports and the actions to come replaced: the word on offer, the pins of the sinks
and the actions. The registers and the traces are those of `s`. -/
@[simps] def State.withPorts (held : Option Output) (p q : Bool) (env : List EnvAction)
    (s : State) : State :=
  { s with held := held, pReady := p, rReady := q, env := env }

section
variable (s : State) (held : Option Output) (p q : Bool) (env : List EnvAction)

@[simp] theorem State.withPorts_busy : (s.withPorts held p q env).busy = s.busy := rfl

@[simp] theorem State.withPorts_done : (s.withPorts held p q env).done = s.done := rfl

@[simp] theorem State.withPorts_faulted : (s.withPorts held p q env).faulted = s.faulted := rfl

theorem State.writeReg_withPorts (r : BitVec 4) (v : Word16) :
    (s.withPorts held p q env).writeReg r v =
      (s.writeReg r v).map (State.withPorts held p q env) := by
  simp only [State.writeReg]
  split <;> rfl

theorem State.transfer_withPorts (o : Output) :
    (s.withPorts held p q env).transfer o = (s.transfer o).withPorts held p q env := by
  cases o with
  | response w => rfl
  | pixel px => obtain ⟨data, _ | _, _ | _⟩ := px <;> rfl

end

/-! ### What the ports are to a command -/

/-- The ports matter to `f` in `s` at one point at most: it makes no output word and leaves the
ports as they are, or all it does is to put out one word. -/
def UsesPortsToEmit (f : State → StepResult) (s : State) : Prop :=
  (∃ t : State, ∀ held p q env, f (s.withPorts held p q env) = .next (t.withPorts held p q env)) ∨
  ∃ o, ∀ held p q env, f (s.withPorts held p q env) = .next ((s.withPorts held p q env).emit o)

section
variable {s : State}

theorem usesPortsToEmit_runMalformed (w : Word32) : UsesPortsToEmit (runMalformed w) s := by
  cases hf : s.faulted with
  | true => exact .inl ⟨s, fun _ _ _ _ => unlessFaulted_of_faulted (by exact hf) _⟩
  | false =>
    exact .inl ⟨s.enterFault .illegal w, fun _ _ _ _ =>
      unlessFaulted_of_not_faulted (by exact hf) _⟩

theorem usesPortsToEmit_of_not_wellFormed {i : Instr} (h : i.wellFormed = false) :
    UsesPortsToEmit (exec i) s := by
  have hexec : exec i = runMalformed (encode i) := funext fun u => exec_of_not_wellFormed u h
  rw [hexec]
  exact usesPortsToEmit_runMalformed _

theorem usesPortsToEmit_setReg {r : BitVec 4} (hr : r.toNat ≤ 7) (imm : Word16) :
    UsesPortsToEmit (exec (.setReg r imm)) s := by
  cases hs : s.phase with
  | idle =>
    obtain ⟨t, ht⟩ := s.exists_writeReg imm hr
    refine .inl ⟨t, fun _ _ _ _ => execSet_writes hs ?_⟩
    rw [State.writeReg_withPorts, ht, Option.map_some]
  | busy => exact .inl ⟨s.enterFault .seq _, fun _ _ _ _ => execSet_seq hs hr⟩
  | faulted => exact .inl ⟨s, fun _ _ _ _ => execSet_discarded hs⟩

theorem usesPortsToEmit_getReg {r : BitVec 4} (hr : r.toNat ≤ 11) :
    UsesPortsToEmit (exec (.getReg r)) s := by
  obtain ⟨v, hv⟩ := Option.isSome_iff_exists.mp ((s.readReg_isSome_iff r).mpr hr)
  exact .inr ⟨.response v, fun _ _ _ _ => execGet_eq hv⟩

theorem usesPortsToEmit_mapSample {c : BitVec 4} (hc : c.toNat ≤ 2) (imm : Word16) :
    UsesPortsToEmit (exec (.mapSample c imm)) s := by
  obtain ⟨rg, hrg⟩ := Option.isSome_iff_exists.mp ((s.channelRange_isSome_iff c).mpr hc)
  cases hf : s.faulted with
  | true => exact .inl ⟨s, fun _ _ _ _ => execMap_discarded (s.phase_faulted_iff.mpr hf)⟩
  | false => exact .inr ⟨.response _, fun _ _ _ _ => execMap_eq hf hrg⟩

theorem usesPortsToEmit_beginFrame : UsesPortsToEmit (exec .beginFrame) s := by
  cases hs : s.phase with
  | idle =>
    obtain ⟨hf, hb⟩ := s.phase_idle_iff.mp hs
    cases hg : s.emptyGrid with
    | true => exact .inl ⟨s.enterFault .dim _, fun _ _ _ _ => execBegin_dim hs hg⟩
    | false =>
      cases hr : s.anyReversed with
      | true => exact .inl ⟨s.enterFault .range _, fun _ _ _ _ => execBegin_range hs hg hr⟩
      | false => exact .inl ⟨s.openFrame, fun _ _ _ _ => execBegin_eq hf hb hg hr⟩
  | busy => exact .inl ⟨s.enterFault .seq _, fun _ _ _ _ => execBegin_seq hs⟩
  | faulted => exact .inl ⟨s, fun _ _ _ _ => execBegin_discarded hs⟩

theorem usesPortsToEmit_pix (imm : Word16) : UsesPortsToEmit (exec (.pix imm)) s := by
  cases hs : s.phase with
  | idle => exact .inl ⟨s.enterFault .seq _, fun _ _ _ _ => execPix_seq hs⟩
  | busy =>
    obtain ⟨hf, hb⟩ := s.phase_busy_iff.mp hs
    exact .inr ⟨.pixel (s.pixelOf imm), fun _ _ _ _ => execPix_eq hf hb⟩
  | faulted => exact .inl ⟨s, fun _ _ _ _ => execPix_discarded hs⟩

theorem usesPortsToEmit_exec (i : Instr) : UsesPortsToEmit (exec i) s := by
  cases hwf : i.wellFormed with
  | false => exact usesPortsToEmit_of_not_wellFormed hwf
  | true =>
    cases i with
    | nop => exact .inl ⟨s, fun _ _ _ _ => rfl⟩
    | setReg r imm => exact usesPortsToEmit_setReg (of_decide_eq_true hwf) imm
    | getReg r => exact usesPortsToEmit_getReg (of_decide_eq_true hwf)
    | mapSample c imm => exact usesPortsToEmit_mapSample (of_decide_eq_true hwf) imm
    | beginFrame => exact usesPortsToEmit_beginFrame
    | pix imm => exact usesPortsToEmit_pix imm

theorem usesPortsToEmit_acceptWord (w : Word32) : UsesPortsToEmit (acceptWord w) s := by
  cases hd : decode w with
  | ok i =>
    have hrun : acceptWord w = exec i := funext (acceptWord_of_decode hd)
    rw [hrun]
    exact usesPortsToEmit_exec i
  | error e =>
    have hrun : acceptWord w = runMalformed w :=
      funext fun _ => acceptWord_of_malformed (by rw [hd, toOption_error])
    rw [hrun]
    exact usesPortsToEmit_runMalformed w

end

/-! ### A pin driven after the command -/

theorem State.settle_of_waits {s : State} (h : ∀ o, s.held = some o → s.sinkReady o = false) :
    s.settle = s := by
  rcases s.settle_cases with ⟨hsame, -⟩ | ⟨o, ho, hready, -⟩
  · exact hsame
  · simp [h o ho] at hready

theorem State.settle_of_releases {s : State} {o : Output} (ho : s.held = some o)
    (h : s.sinkReady o = true) : s.settle = s.release.transfer o := by
  rcases s.settle_cases with ⟨-, hwaits⟩ | ⟨o', ho', -, hsettle⟩
  · simp [hwaits o ho] at h
  · obtain rfl : o = o' := Option.some.inj (ho.symm.trans ho')
    exact hsettle

/-- A word put out before the pins become `p` and `q` ends as one put out after, unless a sink that
had taken it is no longer ready. -/
theorem State.settle_emit {s : State} {o : Output} {p q : Bool} {env : List EnvAction}
    (hs : s.held = none)
    (hready : s.sinkReady o = true → (s.withPorts none p q env).sinkReady o = true) :
    ((s.emit o).withPorts (s.emit o).held p q env).settle = (s.withPorts none p q env).emit o := by
  cases hbefore : s.sinkReady o with
  | true =>
    rw [State.emit_of_ready hbefore, State.emit_of_ready (hready hbefore), State.transfer_held, hs,
      State.transfer_withPorts]
    exact State.settle_of_waits (by simp)
  | false =>
    rw [State.emit_of_not_ready hbefore]
    cases hafter : (s.withPorts none p q env).sinkReady o with
    | true =>
      rw [State.emit_of_ready hafter]
      exact State.settle_of_releases rfl (by cases o <;> exact hafter)
    | false =>
      rw [State.emit_of_not_ready hafter]
      refine State.settle_of_waits fun o' ho' => ?_
      obtain rfl : o = o' := Option.some.inj ho'
      cases o <;> exact hafter

/-- The next state in the two cases, where no word was on offer. -/
theorem UsesPortsToEmit.cases_next {f : State → StepResult} {s t : State}
    (hf : UsesPortsToEmit f s) (hs : s.held = none) (ht : f s = .next t) :
    (∃ u : State, t = u.withPorts none s.pReady s.rReady s.env ∧
      ∀ held p q env, f (s.withPorts held p q env) = .next (u.withPorts held p q env)) ∨
    ∃ o, t = s.emit o ∧
      ∀ held p q env, f (s.withPorts held p q env) = .next ((s.withPorts held p q env).emit o) := by
  have hself : s.withPorts none s.pReady s.rReady s.env = s := by rw [← hs]; rfl
  rcases hf with ⟨u, hu⟩ | ⟨o, ho⟩
  · have h := hu none s.pReady s.rReady s.env
    rw [hself, ht, Host.Outcome.next.injEq] at h
    exact .inl ⟨u, h, hu⟩
  · have h := ho none s.pReady s.rReady s.env
    rw [hself, ht, Host.Outcome.next.injEq] at h
    exact .inr ⟨o, h, ho⟩

theorem UsesPortsToEmit.sameWorld {f : State → StepResult} {s t : State}
    (hf : UsesPortsToEmit f s) (hs : s.held = none) (ht : f s = .next t) : SameWorld s t := by
  rcases hf.cases_next hs ht with ⟨u, rfl, -⟩ | ⟨o, rfl, -⟩
  · exact ⟨rfl, rfl, rfl⟩
  · exact ⟨s.emit_pReady o, s.emit_rReady o, s.emit_env o⟩

/-- Pins driven after a command has acted leave what they would have left if they had been so
before, where the command waits or no sink stops being ready. -/
theorem UsesPortsToEmit.settle {f : State → StepResult} {s t : State} {p q : Bool}
    {env : List EnvAction} (hf : UsesPortsToEmit f s) (hs : s.held = none) (ht : f s = .next t)
    (hready : t.held ≠ none ∨ ((s.pReady = true → p = true) ∧ (s.rReady = true → q = true))) :
    .next (t.withPorts t.held p q env).settle = f (s.withPorts none p q env) := by
  rcases hf.cases_next hs ht with ⟨u, rfl, hu⟩ | ⟨o, rfl, ho⟩
  · rw [hu, State.settle_of_waits (by simp)]
    rfl
  · rw [ho, State.settle_emit hs]
    intro hsink
    rcases hready with hwaits | ⟨hp, hq⟩
    · simp [State.emit_of_ready hsink, hs] at hwaits
    · cases o with
      | pixel px => exact hp hsink
      | response w => exact hq hsink

section
variable {f : State → StepResult} {s t : State} {b : Bool}

theorem UsesPortsToEmit.drivePixelReady (hf : UsesPortsToEmit f s) (hs : s.held = none)
    (ht : f s = .next t) (hb : t.held ≠ none ∨ b = true) :
    act (.drivePixelReady b) t = f (s.withPReady b) := by
  obtain ⟨-, hq, he⟩ := hf.sameWorld hs ht
  calc
    act (.drivePixelReady b) t = .next (t.withPorts t.held b t.rReady t.env).settle := rfl
    _ = .next (t.withPorts t.held b s.rReady s.env).settle := by rw [hq, he]
    _ = f (s.withPorts none b s.rReady s.env) :=
      hf.settle hs ht (hb.imp_right fun h => ⟨fun _ => h, id⟩)
    _ = f (s.withPReady b) := by rw [← hs]; rfl

theorem UsesPortsToEmit.driveResponseReady (hf : UsesPortsToEmit f s) (hs : s.held = none)
    (ht : f s = .next t) (hb : t.held ≠ none ∨ b = true) :
    act (.driveResponseReady b) t = f (s.withRReady b) := by
  obtain ⟨hp, -, he⟩ := hf.sameWorld hs ht
  calc
    act (.driveResponseReady b) t = .next (t.withPorts t.held t.pReady b t.env).settle := rfl
    _ = .next (t.withPorts t.held s.pReady b s.env).settle := by rw [hp, he]
    _ = f (s.withPorts none s.pReady b s.env) :=
      hf.settle hs ht (hb.imp_right fun h => ⟨id, fun _ => h⟩)
    _ = f (s.withRReady b) := by rw [← hs]; rfl

end

/-- Settles O48: all that a command has to do with the pins is where its word goes, and a pin driven
later moves the word to where it would have gone. -/
theorem waitingChangesNothing : Obligations.WaitingChangesNothing := by
  intro i s t hs ht
  have hf : UsesPortsToEmit (exec i) s := usesPortsToEmit_exec i
  exact ⟨⟨hf.drivePixelReady hs ht (.inr rfl), hf.driveResponseReady hs ht (.inr rfl)⟩,
    fun b hwaits => ⟨hf.drivePixelReady hs ht (.inl hwaits),
      hf.driveResponseReady hs ht (.inl hwaits)⟩⟩

/-! ### A command whose sink is not ready -/

section
variable {s : State}

theorem State.outputPins_of_pixel {p : Pixel} (h : s.held = some (.pixel p)) :
    s.outputPins.pixel = some p ∧ s.outputPins.response = none ∧ s.outputPins.cReady = false := by
  simp [State.outputPins, State.pixelOffer, State.responseOffer, State.cReady, h]

theorem State.outputPins_of_response {w : Word32} (h : s.held = some (.response w)) :
    s.outputPins.response = some w ∧ s.outputPins.pixel = none ∧ s.outputPins.cReady = false := by
  simp [State.outputPins, State.pixelOffer, State.responseOffer, State.cReady, h]

end

/-- Settles O47: each of the three commands puts its word out, which then stays on offer. -/
theorem outputWordWaitsForItsSink : Obligations.OutputWordWaitsForItsSink := by
  refine ⟨fun imm s hs _ hready => ?pix, fun r s hr _ hready => ?get,
    fun c imm lo hi s hc hs _ hready hlo hhi => ?map⟩
  case pix =>
    obtain ⟨hf, hb⟩ := s.phase_busy_iff.mp hs
    rw [execPix_eq hf hb, State.emit_pixel_of_not_ready _ hready]
    exact ⟨_, rfl, rfl, State.outputPins_of_pixel rfl⟩
  case get =>
    obtain ⟨w, hw⟩ := Option.isSome_iff_exists.mp ((s.readReg_isSome_iff r).mpr hr)
    rw [execGet_eq hw, State.emit_response_of_not_ready _ hready]
    exact ⟨_, w, rfl, rfl, hw, State.outputPins_of_response rfl⟩
  case map =>
    have hrg : s.channelRange c = some ⟨lo, hi⟩ :=
      (State.channelRange_eq_some_iff hc).mpr ⟨hlo, hhi⟩
    rw [execMap_eq (State.not_faulted_of_phase_ne hs) hrg,
      State.emit_response_of_not_ready _ hready]
    refine ⟨_, _, rfl, rfl, ?_, State.outputPins_of_response rfl⟩
    rw [ChannelRange.response_toNat]
    exact ChannelRange.output_toNat ⟨lo, hi⟩ imm

end Sys2Proof.Machine
end

section
/-! PROOFS. The statements about reading a register: no side effect, and the register just written
(`20_memory.md` R62, R66; `70_reset_and_hazards.md` R167). -/

namespace Sys2Proof.Machine

/-- NOP, GET and MAP are the commands of a frame that bring no sample (`41_frame.md` R110). Each of
them does nothing or puts out a response; without a fault GET and MAP do answer. -/
theorem exec_read {i : Instr} (hi : mayStandInFrame i = true) (hv : sampleOf i = none) (s : State) :
    (exec i s = .next s ∧ (s.faulted = false → answers i = false)) ∨
      ∃ v, exec i s = .next (s.emit (.response v)) ∧ answers i = true := by
  cases i with
  | nop => exact .inl ⟨rfl, fun _ => rfl⟩
  | setReg r imm => simp [mayStandInFrame] at hi
  | getReg r =>
    obtain ⟨v, hr⟩ := Option.isSome_iff_exists.mp
      ((s.readReg_isSome_iff r).mpr (of_decide_eq_true hi))
    exact .inr ⟨v, execGet_eq hr, rfl⟩
  | mapSample c imm =>
    obtain ⟨rg, hrg⟩ := Option.isSome_iff_exists.mp
      ((s.channelRange_isSome_iff c).mpr (of_decide_eq_true hi))
    cases hf : s.faulted with
    | true => exact .inl ⟨execMap_discarded (s.phase_faulted_iff.mpr hf), by simp⟩
    | false => exact .inr ⟨_, execMap_eq hf hrg, rfl⟩
  | beginFrame => simp [mayStandInFrame] at hi
  | pix imm => simp [sampleOf] at hv

/-- With a ready sink all that such a command can do is to add responses. -/
theorem exec_read_of_ready {i : Instr} (hi : mayStandInFrame i = true) (hv : sampleOf i = none)
    {s : State} (hready : s.rReady = true) :
    ∃ ws, exec i s = .next { s with responses := s.responses ++ ws } := by
  rcases exec_read hi hv s with ⟨hrun, -⟩ | ⟨v, hrun, -⟩
  · exact ⟨[], by rw [hrun, List.append_nil]⟩
  · exact ⟨[v], by rw [hrun, State.emit_response_of_ready v hready]⟩

/-- Settles O21: each of the three commands adds responses and leaves the registers, so the second
GET reads what the first one read. -/
theorem readsHaveNoSideEffect : Obligations.ReadsHaveNoSideEffect := by
  intro r i s hr hready hi
  obtain ⟨w, hw⟩ := Option.isSome_iff_exists.mp ((s.readReg_isSome_iff r).mpr hr)
  obtain ⟨hframe, hsample⟩ : mayStandInFrame i = true ∧ sampleOf i = none := by
    rcases hi with rfl | ⟨r', rfl, hr'⟩ | ⟨c, imm, rfl, hc⟩
    · exact ⟨rfl, rfl⟩
    · exact ⟨decide_eq_true hr', rfl⟩
    · exact ⟨decide_eq_true hc, rfl⟩
  obtain ⟨ws, hrun⟩ := exec_read_of_ready hframe hsample
    (s := { s with responses := s.responses ++ [w] }) hready
  exact ⟨_, _, _, w, execGet_answers hready hw, hrun,
    execGet_answers (s := { s with responses := s.responses ++ [w] ++ ws }) hready hw,
    fun _ _ => rfl, fun _ _ => rfl, fun _ _ => rfl, rfl, rfl⟩

/-- Settles O22: the state after the SET holds the word in the register that GET reads. -/
theorem setTakesEffectAtOnce : Obligations.SetTakesEffectAtOnce := by
  intro r imm s hr hs hready
  obtain ⟨t, ht⟩ := s.exists_writeReg imm hr
  obtain ⟨-, ⟨-, hresponses, -⟩, ⟨-, hrReady, -⟩⟩ := State.writeReg_changes_one ht
  refine ⟨t, _, execSet_writes hs ht,
    execGet_answers (hrReady.trans hready) (s.writeReg_readReg_self ht), ?_⟩
  rw [← hresponses]

end Sys2Proof.Machine
end

section
/-! PROOFS. The statements about the next action of the other agents: what is accepted when, and
what a reset or a sink's pin does (`20_memory.md` R53 to R55; `70_reset_and_hazards.md` R161, R170).
-/

namespace Sys2Proof.Machine

/-! ### Which action is next -/

section
variable {s u : State} {a : EnvAction} {rest : List EnvAction}

theorem step_of_nextAction (h : s.nextAction = some (a, u)) : step s = act a u := by
  rw [step, h]

theorem step_of_nextAction_none (h : s.nextAction = none) : step s = .next s := by
  rw [step, h]

/-- The first action is next where the block can accept a word, or where it is none. -/
theorem State.nextAction_of_head (h : s.held = none ∨ a.isOffer = false)
    (henv : s.env = a :: rest) : s.nextAction = some (a, s.withEnv rest) := by
  rcases h with h | h <;> simp [State.nextAction, State.cReady, takeAction, henv, h]

/-- While a word waits, the offers before another action stay before it (log entry 3). -/
theorem takeAction_of_offers {offers : List EnvAction} (h : ∀ b ∈ offers, b.isOffer = true)
    (ha : a.isOffer = false) :
    takeAction true (offers ++ a :: rest) = some (a, offers ++ rest) := by
  induction offers with
  | nil => simp [takeAction, ha]
  | cons b offers ih =>
    obtain ⟨hb, hoffers⟩ := List.forall_mem_cons.mp h
    simp [takeAction, hb, ih hoffers]

theorem State.nextAction_of_offers {offers : List EnvAction} (hs : s.held ≠ none)
    (h : ∀ b ∈ offers, b.isOffer = true) (ha : a.isOffer = false)
    (henv : s.env = offers ++ a :: rest) :
    s.nextAction = some (a, s.withEnv (offers ++ rest)) := by
  obtain ⟨o, ho⟩ := Option.ne_none_iff_exists'.mp hs
  simp [State.nextAction, State.cReady, ho, henv, takeAction_of_offers h ha]

/-- An action that is no offer leaves the offers as they are, in their order. -/
theorem State.nextAction_offers (h : s.nextAction = some (a, u)) (ha : a.isOffer = false) :
    u.env.filter EnvAction.isOffer = s.env.filter EnvAction.isOffer := by
  obtain ⟨left, rfl, htake⟩ := State.nextAction_eq_some h
  obtain ⟨before, after, henv, rfl, -, -⟩ := takeAction_eq_some htake
  simp [henv, ha]

/-- Taking an action changes nothing but the actions to come. -/
theorem State.nextAction_state (h : s.nextAction = some (a, u)) : u = { s with env := u.env } := by
  obtain ⟨left, rfl, -⟩ := State.nextAction_eq_some h
  rfl

end

/-! ### Accepting a word -/

/-- Settles O45: the offered word is the next action, and accepting it is running what it decodes
to. -/
theorem stepRunsTheDecodedCommand : Obligations.StepRunsTheDecodedCommand := by
  intro w rest s hs henv
  have hstep : step s = acceptWord w { s with env := rest } :=
    step_of_nextAction (State.nextAction_of_head (.inl hs) henv)
  refine ⟨fun i hi => ?_, fun e he => ?_⟩
  · rw [hstep, acceptWord_of_decode hi]
  · rw [hstep, acceptWord_of_malformed (by rw [he, toOption_error])]

/-- Settles O49: the next action while a word waits is no offer, and passes over the offers. -/
theorem waitingBlockAcceptsNoCommand : Obligations.WaitingBlockAcceptsNoCommand := by
  intro o s ho
  have hnext : ∀ a u, s.nextAction = some (a, u) → a.isOffer = false := by
    intro a u h
    cases a with
    | offer w => simp [State.nextAction_offer h] at ho
    | reset | drivePixelReady b | driveResponseReady b => rfl
  refine ⟨fun a u h => ⟨hnext a u h, State.nextAction_offers h (hnext a u h)⟩, fun hoffers => ?_⟩
  cases h : s.nextAction with
  | none => exact step_of_nextAction_none h
  | some au =>
    obtain ⟨a, u⟩ := au
    obtain ⟨left, -, htake⟩ := State.nextAction_eq_some h
    obtain ⟨before, after, henv, -⟩ := takeAction_eq_some htake
    have ha : a.isOffer = true := hoffers a (by simp [henv])
    simp [hnext a u h] at ha

/-- Settles O40: without an action the step answers the same state, and each action has a next
state. -/
theorem stepAlwaysGoesOn : Obligations.StepAlwaysGoesOn := by
  intro s
  cases h : s.nextAction with
  | none => exact ⟨s, step_of_nextAction_none h⟩
  | some au =>
    obtain ⟨a, u⟩ := au
    rw [step_of_nextAction h]
    cases a with
    | offer w =>
      obtain ⟨t, ht, -⟩ := acceptWord_cases w u
      exact ⟨t, ht⟩
    | reset | drivePixelReady b | driveResponseReady b => exact ⟨_, rfl⟩

/-! ### Reset -/

/-- Settles O50: the reset is next where nothing but waiting offers stands before it, and it is
`resetBlock` of the state with the action taken. -/
theorem resetMayComeAtAnyTime : Obligations.ResetMayComeAtAnyTime := by
  refine ⟨fun s u h => ?reset, fun rest s henv => ?first,
    fun offers rest s hs hoffers henv => ?behind⟩
  case reset =>
    have hoffers := State.nextAction_offers h rfl
    obtain ⟨left, rfl, -⟩ := State.nextAction_eq_some h
    exact ⟨_, step_of_nextAction h, fun r => State.readReg_resetBlock _, rfl, rfl, rfl, rfl, rfl,
      rfl, hoffers⟩
  case first => exact ⟨_, State.nextAction_of_head (.inr rfl) henv, rfl⟩
  case behind => exact ⟨_, State.nextAction_of_offers hs hoffers rfl henv, rfl⟩

/-! ### The pins of the sinks -/

/-- A pixel's transfer as seen in `STATUS` and the position (`41_frame.md` R112). -/
theorem State.advance_position (s : State) (eol eof : Bool) :
    (eof = true → (s.advance eol eof).busy = false ∧ (s.advance eol eof).done = true ∧
      (s.advance eol eof).xpos = 0 ∧ (s.advance eol eof).ypos = 0) ∧
    (eof = false → (s.advance eol eof).status = s.status) ∧
    (eof = false → eol = true →
      (s.advance eol eof).xpos = 0 ∧ (s.advance eol eof).ypos = s.ypos + 1) ∧
    (eof = false → eol = false →
      (s.advance eol eof).xpos = s.xpos + 1 ∧ (s.advance eol eof).ypos = s.ypos) := by
  cases eof <;> cases eol <;> simp

section
variable {s : State} {b : Bool}

theorem State.settle_withPReady_of_waits (h : s.held = none ∨
    ((∃ p, s.held = some (.pixel p)) ∧ b = false) ∨
    ((∃ w, s.held = some (.response w)) ∧ s.rReady = false)) :
    (s.withPReady b).settle = s.withPReady b := by
  refine State.settle_of_waits fun o (ho : s.held = some o) => ?_
  rcases h with hnone | ⟨⟨p, hp⟩, rfl⟩ | ⟨⟨w, hw⟩, hready⟩
  · simp [hnone] at ho
  · obtain rfl : .pixel p = o := Option.some.inj (hp.symm.trans ho)
    rfl
  · obtain rfl : .response w = o := Option.some.inj (hw.symm.trans ho)
    exact hready

theorem State.settle_withRReady_of_waits (h : s.held = none ∨
    ((∃ w, s.held = some (.response w)) ∧ b = false) ∨
    ((∃ p, s.held = some (.pixel p)) ∧ s.pReady = false)) :
    (s.withRReady b).settle = s.withRReady b := by
  refine State.settle_of_waits fun o (ho : s.held = some o) => ?_
  rcases h with hnone | ⟨⟨w, hw⟩, rfl⟩ | ⟨⟨p, hp⟩, hready⟩
  · simp [hnone] at ho
  · obtain rfl : .response w = o := Option.some.inj (hw.symm.trans ho)
    rfl
  · obtain rfl : .pixel p = o := Option.some.inj (hp.symm.trans ho)
    exact hready

theorem State.settle_withPReady_of_pixel {p : Pixel} (hp : s.held = some (.pixel p)) :
    (s.withPReady true).settle =
      ((s.withPReady true).release.appendPixel p).advance p.eol p.eof :=
  State.settle_of_releases (s := s.withPReady true) (o := .pixel p) hp rfl

theorem State.settle_withRReady_of_response {w : Word32} (hw : s.held = some (.response w)) :
    (s.withRReady true).settle = (s.withRReady true).release.appendResponse w :=
  State.settle_of_releases (s := s.withRReady true) (o := .response w) hw rfl

end

/-- Settles O58: a driven pin is followed by `settle`, which transfers the word on offer exactly
where its sink is ready. -/
theorem drivenPinMovesOnlyTheWordItReleases : Obligations.DrivenPinMovesOnlyTheWordItReleases := by
  refine ⟨fun b s u h => ⟨State.nextAction_state h, fun hwaits => ?pixelPin⟩,
    fun p s u h hp => ?pixelGoes,
    fun b s u h => ⟨State.nextAction_state h, fun hwaits => ?responsePin⟩,
    fun w s u h hw => ?responseGoes⟩ <;>
    obtain ⟨left, rfl, -⟩ := State.nextAction_eq_some h <;> rw [step_of_nextAction h, act]
  case pixelPin => exact congrArg _ (State.settle_withPReady_of_waits hwaits)
  case pixelGoes =>
    rw [State.settle_withPReady_of_pixel (s := s.withEnv left) hp]
    obtain ⟨hfault, hcause, hreserved⟩ :=
      (((s.withEnv left).withPReady true).release.appendPixel p).advance_keeps_fault_fields
        p.eol p.eof
    obtain ⟨hcloses, hopen, hrow, hcolumn⟩ :=
      (((s.withEnv left).withPReady true).release.appendPixel p).advance_position p.eol p.eof
    obtain ⟨hregs, hresponses, hheld, hpReady, hrReady, henv⟩ :=
      ((s.withEnv left).withPReady true).release.advance_appendPixel_frame p p.eol p.eof
    exact ⟨_, rfl, hheld, State.advance_pixels .., hresponses, hpReady, hrReady, henv, hcloses,
      hopen, hrow, hcolumn, hfault, hcause, hreserved, hregs⟩
  case responsePin => exact congrArg _ (State.settle_withRReady_of_waits hwaits)
  case responseGoes =>
    exact congrArg _ (State.settle_withRReady_of_response (s := s.withEnv left) hw)

end Sys2Proof.Machine
end

section
/-! PROOFS. What a step can do to the registers and the traces, and the statements of safety that
follow (`10_state.md` R31, R33, R37; `41_frame.md` R119, R121; `70_reset_and_hazards.md` R170). -/

namespace Sys2Proof.Machine

/-! ### The effects of a step -/

/-- The words that can be on offer after a step from `s`, or leave in it: a response, the pixel that
already waits, or the pixel of a sample accepted in an open frame. -/
def State.MayOffer (s : State) : Output → Prop
  | .pixel px => s.held = some (.pixel px) ∨ (s.phase = .busy ∧ ∃ imm, px = s.pixelOf imm)
  | .response _ => True

/-- Everything a step from `s` can do to the registers and the traces, with the ports as they are
after it: nothing, fault entry, one SET, the opening of a frame, one response, one pixel, or reset.
-/
inductive StepEffect (s : State) : State → Prop
  /-- No action can happen. -/
  | idles : StepEffect s s
  /-- Only the ports change; a word on offer after the step waits for its sink. -/
  | offers (held : Option Output) (p q : Bool) (env : List EnvAction)
      (hoffer : ∀ o, held = some o →
        s.MayOffer o ∧ (s.withPorts held p q env).sinkReady o = false) :
      StepEffect s (s.withPorts held p q env)
  /-- The word accepted raises a fault. -/
  | faults {w : Word32} {k : Cause} {u : State} (p q : Bool) (env : List EnvAction)
      (hnext : s.nextAction = some (.offer w, u)) (hfault : faultOf w s = some k) :
      StepEffect s ((s.withPorts none p q env).enterFault k w)
  /-- SET in phase IDLE. -/
  | sets {w : Word32} {r : BitVec 4} {imm : Word16} {u t : State} (p q : Bool)
      (env : List EnvAction) (hnext : s.nextAction = some (.offer w, u))
      (hdecode : decode w = .ok (.setReg r imm)) (hidle : s.phase = .idle)
      (hwrite : (s.withPorts none p q env).writeReg r imm = some t) :
      StepEffect s t
  /-- BEGIN in phase IDLE that passes its tests. -/
  | opens {w : Word32} {u : State} (p q : Bool) (env : List EnvAction)
      (hnext : s.nextAction = some (.offer w, u)) (hdecode : decode w = .ok .beginFrame)
      (hidle : s.phase = .idle) (hwidth : s.width ≠ 0) (hheight : s.height ≠ 0)
      (hordered : s.anyReversed = false) :
      StepEffect s (s.withPorts none p q env).openFrame
  /-- A response leaves. -/
  | answers (p q : Bool) (env : List EnvAction) (v : Word32) :
      StepEffect s ((s.withPorts none p q env).appendResponse v)
  /-- A pixel leaves, and the position moves by its marks. -/
  | emits (p q : Bool) (env : List EnvAction) (px : Pixel) (hoffer : s.MayOffer (.pixel px)) :
      StepEffect s (((s.withPorts none p q env).appendPixel px).advance px.eol px.eof)
  /-- Reset. -/
  | resets {u : State} (p q : Bool) (env : List EnvAction)
      (hnext : s.nextAction = some (.reset, u)) :
      StepEffect s (s.withPorts none p q env).resetBlock

section
variable {s : State} {p q : Bool} {env : List EnvAction} {o : Output}

theorem StepEffect.transfer (h : s.MayOffer o) :
    StepEffect s ((s.withPorts none p q env).transfer o) := by
  cases o with
  | response v => exact .answers p q env v
  | pixel px => exact .emits p q env px h

theorem StepEffect.emit (h : s.MayOffer o) :
    StepEffect s ((s.withPorts none p q env).emit o) := by
  cases hready : (s.withPorts none p q env).sinkReady o with
  | true =>
    rw [State.emit_of_ready hready]
    exact .transfer h
  | false =>
    rw [State.emit_of_not_ready hready]
    refine .offers (some o) p q env fun o' ho' => ?_
    obtain rfl : o = o' := Option.some.inj ho'
    exact ⟨h, by cases o <;> exact hready⟩

theorem State.mayOffer_of_held (h : s.held = some o) : s.MayOffer o := by
  cases o with
  | response v => trivial
  | pixel px => exact .inl h

theorem StepEffect.settle : StepEffect s (s.withPorts s.held p q env).settle := by
  rcases (s.withPorts s.held p q env).settle_cases with ⟨hsame, hwaits⟩ | ⟨o, ho, -, hsettle⟩
  · rw [hsame]
    exact .offers s.held p q env fun o ho => ⟨State.mayOffer_of_held ho, hwaits o ho⟩
  · rw [hsettle]
    exact .transfer (State.mayOffer_of_held ho)

end

/-- Accepting a word is one of these effects. -/
theorem StepEffect.acceptWord {w : Word32} {s t : State} {left : List EnvAction}
    (hnext : s.nextAction = some (.offer w, s.withEnv left))
    (ht : acceptWord w (s.withEnv left) = .next t) : StepEffect s t := by
  have hports : s.withEnv left = s.withPorts none s.pReady s.rReady left := by
    rw [← State.nextAction_offer hnext]
    rfl
  obtain ⟨t', ht', hcases⟩ := acceptWord_cases w (s.withEnv left)
  obtain rfl : t = t' := by rwa [ht, Host.Outcome.next.injEq] at ht'
  rw [hports] at hcases
  rcases hcases with ⟨_, rfl, _⟩ | ⟨k, hk, _, rfl⟩ | ⟨r, imm, _, hf, hb, hd, hwrite⟩ |
    ⟨_, hf, hb, hd, hw, hh, hr, rfl⟩ | ⟨r, v, _, _, _, rfl⟩ | ⟨c, imm, rg, _, _, _, _, rfl⟩ |
    ⟨imm, _, hf, hb, _, rfl⟩
  · exact .offers none _ _ _ fun o ho => nomatch ho
  · exact .faults _ _ _ hnext hk
  · exact .sets _ _ _ hnext hd (s.phase_idle_iff.mpr ⟨hf, hb⟩) hwrite
  · exact .opens _ _ _ hnext hd (s.phase_idle_iff.mpr ⟨hf, hb⟩) hw hh hr
  · exact .emit trivial
  · exact .emit trivial
  · exact .emit (.inr ⟨s.phase_busy_iff.mpr ⟨hf, hb⟩, imm, rfl⟩)

theorem step_effect {s t : State} (h : step s = .next t) : StepEffect s t := by
  rcases step_cases h with ⟨_, rfl⟩ | ⟨w, u, hnext, _, ht⟩ | ⟨u, hnext, rfl⟩ |
    ⟨b, u, hnext, rfl⟩ | ⟨b, u, hnext, rfl⟩
  case inl => exact .idles
  all_goals obtain ⟨left, rfl, -⟩ := State.nextAction_eq_some hnext
  · exact .acceptWord hnext ht
  · exact .resets s.pReady s.rReady left hnext
  · exact .settle
  · exact .settle

/-! ### What moves what -/

theorem faulted_eq_false_of_faultOf {w : Word32} {s : State} {k : Cause}
    (h : faultOf w s = some k) : s.faulted = false := by
  cases hf : s.faulted with
  | false => rfl
  | true => simp [faultOf, hf] at h

/-- The word that opens a frame. -/
theorem eq_of_decode_beginFrame {w : Word32} (h : decode w = .ok .beginFrame) : w = 0x40000000 :=
  (encode_of_decode h).symm

/-- Settles O34: of the effects, fault entry and reset alone write `FWORD`. -/
theorem fwordIsWrittenByFaultEntryOnly : Obligations.FwordIsWrittenByFaultEntryOnly := by
  intro s t h hne
  cases step_effect h with
  | idles | offers | opens | answers => exact absurd rfl hne
  | emits => simp at hne
  | sets _ _ _ _ _ _ hwrite =>
    obtain ⟨-, -, -, hfword, -⟩ := State.writeReg_frame _ hwrite
    exact absurd hfword hne
  | faults _ _ _ hnext hfault =>
    have hs : s.phase ≠ .faulted := by
      simp [s.phase_faulted_iff, faulted_eq_false_of_faultOf hfault]
    exact .inl ⟨_, _, hnext, hs, (State.phase_faulted_iff _).mpr (State.enterFault_faulted ..), rfl⟩
  | resets _ _ _ hnext => exact .inr ⟨_, hnext, rfl⟩

/-- Where the configuration is the same, only the hardware's four registers can differ (R26). -/
theorem RegsSameBut.of_same_config {s t : State}
    (h : t.lo0 = s.lo0 ∧ t.hi0 = s.hi0 ∧ t.lo1 = s.lo1 ∧ t.hi1 = s.hi1 ∧ t.lo2 = s.lo2 ∧
      t.hi2 = s.hi2 ∧ t.width = s.width ∧ t.height = s.height) :
    RegsSameBut [8, 9, 10, 11] s t :=
  RegsSameBut.of_config h (by simp) (by simp) (by simp) (by simp)

/-- Settles O41: of the effects, SET and reset alone write a configuration register. -/
theorem onlySetWritesTheConfiguration : Obligations.OnlySetWritesTheConfiguration := by
  intro s t h
  cases step_effect h with
  | idles | offers | faults | opens | answers => exact .inl (.of_same_config (by simp))
  | emits => exact .inl (.of_same_config (by simp))
  | sets p q env hnext hdecode hidle hwrite =>
    obtain ⟨hregs, -, -⟩ := State.writeReg_changes_one hwrite
    exact .inr (.inr ⟨_, _, _, _, hnext, hdecode, hidle, hregs,
      State.writeReg_readReg_self _ hwrite⟩)
  | resets _ _ _ hnext => exact .inr (.inl ⟨_, hnext⟩)

/-- The move of the position never clears `DONE`. -/
theorem State.advance_done_of_done {s : State} {eol eof : Bool} (h : s.done = true) :
    (s.advance eol eof).done = true := by
  cases eof <;> cases eol <;> simp [h]

/-- Settles O42: of the effects, the opening of a frame and reset alone clear `DONE`. -/
theorem doneStaysUntilBeginOrReset : Obligations.DoneStaysUntilBeginOrReset := by
  intro s t h hs ht
  cases step_effect h with
  | idles => simp [hs] at ht
  | offers | faults | answers => simp [hs] at ht
  | sets _ _ _ _ _ _ hwrite =>
    obtain ⟨hstatus, -⟩ := State.writeReg_frame _ hwrite
    obtain ⟨-, hdone, -⟩ := State.flags_of_status hstatus
    simp [hdone, hs] at ht
  | emits p q env px =>
    have hdone : State.done (((s.withPorts none p q env).appendPixel px).advance px.eol px.eof) =
        true := State.advance_done_of_done hs
    simp [hdone] at ht
  | opens _ _ _ hnext hdecode =>
    rw [eq_of_decode_beginFrame hdecode] at hnext
    exact .inl ⟨_, hnext, State.openFrame_busy _⟩
  | resets _ _ _ hnext => exact .inr ⟨_, hnext⟩

/-- Settles O43: of the effects, the opening of a frame, a pixel and reset alone write the position.
-/
theorem positionMovesOnlyWithAPixel : Obligations.PositionMovesOnlyWithAPixel := by
  intro s t h
  cases step_effect h with
  | idles | offers | faults | answers => exact .inl ⟨rfl, rfl⟩
  | sets _ _ _ _ _ _ hwrite =>
    obtain ⟨-, hx, hy, -⟩ := State.writeReg_frame _ hwrite
    exact .inl ⟨hx, hy⟩
  | emits p q env px => exact .inr (.inl ⟨px, State.advance_pixels ..⟩)
  | opens _ _ _ hnext hdecode =>
    rw [eq_of_decode_beginFrame hdecode] at hnext
    exact .inr (.inr (.inl ⟨_, hnext, rfl, rfl⟩))
  | resets _ _ _ hnext => exact .inr (.inr (.inr ⟨_, hnext⟩))

/-- Settles O44: of the effects, a response and a pixel alone touch a trace, each by one word. -/
theorem tracesOnlyGrow : Obligations.TracesOnlyGrow := by
  intro s t h
  cases step_effect h with
  | idles | offers | faults | opens | resets => exact ⟨[], [], by simp⟩
  | sets _ _ _ _ _ _ hwrite =>
    obtain ⟨-, -, -, -, -, hpixels, hresponses, -⟩ := State.writeReg_frame _ hwrite
    exact ⟨[], [], by simp [hpixels, hresponses]⟩
  | answers _ _ _ v => exact ⟨[], [v], by simp⟩
  | emits _ _ _ px => exact ⟨[px], [], by simp⟩

end Sys2Proof.Machine
end

section
/-! PROOFS. The statements about the invariant and the fault record (`10_state.md` R28 to R33;
`60_exceptions.md` R135 to R142). -/

namespace Sys2Proof.Machine

/-! ### Each effect keeps the invariant -/

section
variable {s t : State}

/-- In a state of the invariant only a frame makes pixels, with the marks of its position. -/
theorem State.Inv.pixel_of_mayOffer {px : Pixel} (h : s.Inv) (hoffer : s.MayOffer (.pixel px)) :
    s.phase = .busy ∧ px.eol = s.atRowEnd ∧ px.eof = s.atFrameEnd := by
  rcases hoffer with hheld | ⟨hbusy, imm, rfl⟩
  · exact h.held_pixel px hheld
  · exact ⟨hbusy, rfl, rfl⟩

theorem State.Inv.withPorts {held : Option Output} {p q : Bool} {env : List EnvAction} (h : s.Inv)
    (hoffer : ∀ o, held = some o →
      s.MayOffer o ∧ (s.withPorts held p q env).sinkReady o = false) :
    (s.withPorts held p q env).Inv where
  reserved_zero := h.reserved_zero
  cause_zero_iff := h.cause_zero_iff
  cause_le := h.cause_le
  not_busy_and_done := h.not_busy_and_done
  fword_zero := h.fword_zero
  position_inside := h.position_inside
  ranges_ordered := h.ranges_ordered
  position_zero := h.position_zero
  held_waits o ho := (hoffer o ho).2
  held_pixel _ hpx := h.pixel_of_mayOffer (hoffer _ hpx).1

/-- The word on offer goes, and the registers stay in the invariant. -/
theorem State.Inv.withoutOffer {p q : Bool} {env : List EnvAction} (h : s.Inv) :
    (s.withPorts none p q env).Inv :=
  h.withPorts fun _ ho => nomatch ho

/-- Where `STATUS` and `FWORD` stay and no word is on offer, the invariant is about the position and
the ranges. -/
theorem State.Inv.of_status (h : s.Inv) (hstatus : t.status = s.status)
    (hfword : t.fword = s.fword) (hheld : t.held = none)
    (hopen : s.busy = true → (t.xpos.toNat < t.width.toNat ∧ t.ypos.toNat < t.height.toNat) ∧
      t.anyReversed = false)
    (hzero : s.busy = false → t.xpos = 0 ∧ t.ypos = 0) : t.Inv := by
  obtain ⟨hbusy, hdone, hfaulted⟩ := State.flags_of_status hstatus
  exact {
    reserved_zero := by rw [hstatus]; exact h.reserved_zero
    cause_zero_iff := by rw [hstatus, hfaulted]; exact h.cause_zero_iff
    cause_le := by rw [hstatus]; exact h.cause_le
    not_busy_and_done := by rw [hbusy, hdone]; exact h.not_busy_and_done
    fword_zero := by rw [hfaulted, hfword]; exact h.fword_zero
    position_inside := fun hb => (hopen (hbusy ▸ hb)).1
    ranges_ordered := fun hb => (hopen (hbusy ▸ hb)).2
    position_zero := fun hb => hzero (hbusy ▸ hb)
    held_waits := by simp [hheld]
    held_pixel := by simp [hheld] }

theorem State.Inv.appendResponse (h : s.Inv) (hs : s.held = none) (v : Word32) :
    (s.appendResponse v).Inv :=
  h.of_status rfl rfl hs (fun hb => ⟨h.position_inside hb, h.ranges_ordered hb⟩) h.position_zero

theorem State.Inv.writeReg {r : BitVec 4} {imm : Word16} (h : s.Inv) (hs : s.held = none)
    (hidle : s.phase = .idle) (hwrite : s.writeReg r imm = some t) : t.Inv := by
  obtain ⟨-, hb⟩ := s.phase_idle_iff.mp hidle
  obtain ⟨hstatus, hx, hy, hfword, hheld, -⟩ := s.writeReg_frame hwrite
  refine h.of_status hstatus hfword (hheld.trans hs) (by simp [hb]) fun hb => ?_
  rw [hx, hy]
  exact h.position_zero hb

theorem State.Inv.enterFault (h : s.Inv) (hs : s.held = none) (k : Cause) (w : Word32) :
    (s.enterFault k w).Inv where
  reserved_zero := by simpa using h.reserved_zero
  cause_zero_iff := by cases k <;> simp [causeCode]
  cause_le := by cases k <;> simp [causeCode]
  not_busy_and_done := by simpa using h.not_busy_and_done
  fword_zero := by simp
  position_inside := by simpa using h.position_inside
  ranges_ordered hb := h.ranges_ordered (by simpa using hb)
  position_zero := by simpa using h.position_zero
  held_waits := by simp [hs]
  held_pixel := by simp [hs]

theorem State.Inv.openFrame (h : s.Inv) (hs : s.held = none) (hw : s.width ≠ 0)
    (hh : s.height ≠ 0) (hordered : s.anyReversed = false) : s.openFrame.Inv where
  reserved_zero := by simpa using h.reserved_zero
  cause_zero_iff := by simpa using h.cause_zero_iff
  cause_le := by simpa using h.cause_le
  not_busy_and_done := by simp
  fword_zero := by simpa using h.fword_zero
  position_inside _ := ⟨BitVec.toNat_pos_of_ne_zero hw, BitVec.toNat_pos_of_ne_zero hh⟩
  ranges_ordered _ := hordered
  position_zero := by simp
  held_waits := by simp [hs]
  held_pixel := by simp [hs]

theorem State.Inv.closeFrame (h : s.Inv) (hs : s.held = none) : s.closeFrame.Inv where
  reserved_zero := by simpa using h.reserved_zero
  cause_zero_iff := by simpa using h.cause_zero_iff
  cause_le := by simpa using h.cause_le
  not_busy_and_done := by simp
  fword_zero := by simpa using h.fword_zero
  position_inside := by simp
  ranges_ordered := by simp
  position_zero := by simp
  held_waits := by simp [hs]
  held_pixel := by simp [hs]

/-- A number below another one can go one up without wrapping. -/
theorem toNat_add_one_lt {x n : Word16} (h : x.toNat < n.toNat) (hne : u16 x ≠ u16 n - 1) :
    (x + 1).toNat < n.toNat := by
  simp only [u16] at hne
  bv_omega

/-- A pixel with the marks of the position moves to a place inside the grid, or closes the frame. -/
theorem State.Inv.advance (h : s.Inv) (hs : s.held = none) (hbusy : s.phase = .busy) :
    (s.advance s.atRowEnd s.atFrameEnd).Inv := by
  obtain ⟨-, hb⟩ := s.phase_busy_iff.mp hbusy
  obtain ⟨hx, hy⟩ := h.position_inside hb
  cases heof : s.atFrameEnd with
  | true => exact h.closeFrame hs
  | false =>
    refine h.of_status (s.advance_status_of_open _) (s.advance_fword ..)
      ((s.advance_held ..).trans hs) (fun _ => ⟨?_, ?_⟩) (by simp [hb])
    · cases heol : s.atRowEnd with
      | true =>
        have hrow : u16 s.ypos ≠ u16 s.height - 1 := by simpa [State.atFrameEnd, heol] using heof
        exact ⟨by simpa using Nat.zero_lt_of_lt hx, toNat_add_one_lt hy hrow⟩
      | false =>
        have hcolumn : u16 s.xpos ≠ u16 s.width - 1 := of_decide_eq_false heol
        exact ⟨toNat_add_one_lt hx hcolumn, hy⟩
    · cases s.atRowEnd <;> exact h.ranges_ordered hb

theorem State.Inv.appendPixel (h : s.Inv) (hs : s.held = none) (px : Pixel) :
    (s.appendPixel px).Inv :=
  h.of_status rfl rfl hs (fun hb => ⟨h.position_inside hb, h.ranges_ordered hb⟩) h.position_zero

theorem State.inv_resetBlock (s : State) : s.resetBlock.Inv where
  reserved_zero := by simp [statusReserved]
  cause_zero_iff := by simp [statusCause]
  cause_le := by simp [statusCause]
  not_busy_and_done := by simp
  fword_zero := by simp
  position_inside := by simp
  ranges_ordered := by simp
  position_zero := by simp
  held_waits := by simp
  held_pixel := by simp

end

/-- Settles O39: every effect of a step keeps the invariant. -/
theorem stepKeepsTheInvariant : Obligations.StepKeepsTheInvariant := by
  intro s t h hstep
  cases step_effect hstep with
  | idles => exact h
  | offers _ _ _ _ hoffer => exact h.withPorts hoffer
  | faults => exact h.withoutOffer.enterFault rfl _ _
  | sets _ _ _ _ _ hidle hwrite => exact h.withoutOffer.writeReg rfl hidle hwrite
  | opens _ _ _ _ _ _ hw hh hordered => exact h.withoutOffer.openFrame rfl hw hh hordered
  | answers => exact h.withoutOffer.appendResponse rfl _
  | emits p q env px hoffer =>
    obtain ⟨hbusy, heol, heof⟩ := h.pixel_of_mayOffer hoffer
    have hmoved := (h.withoutOffer (p := p) (q := q) (env := env)).appendPixel rfl px
    rw [heol, heof]
    exact hmoved.advance rfl hbusy
  | resets => exact State.inv_resetBlock _

/-! ### The fault record -/

/-- The two tests of BEGIN in their order (R139). -/
theorem faultOf_beginFrame {w : Word32} {s : State} (hd : decode w = .ok .beginFrame)
    (hf : s.faulted = false) (hb : s.busy = false) :
    faultOf w s =
      if s.emptyGrid then some .dim else if s.anyReversed then some .range else none := by
  simp [faultOf, hf, hd, hb, s.emptyGrid_iff, s.anyReversed_iff]

/-- The ways for a word to raise a fault, each with its cause (R135, R139). -/
theorem faultOf_cases {w : Word32} {s : State} {k : Cause} (h : faultOf w s = some k) :
    (k = .illegal ∧ (decode w).toOption = none) ∨
    (k = .seq ∧ s.busy = true ∧
      ((∃ r imm, decode w = .ok (.setReg r imm)) ∨ decode w = .ok .beginFrame)) ∨
    (k = .seq ∧ s.busy = false ∧ ∃ imm, decode w = .ok (.pix imm)) ∨
    (k = .dim ∧ s.busy = false ∧ decode w = .ok .beginFrame ∧ (s.width = 0 ∨ s.height = 0)) ∨
    (k = .range ∧ s.busy = false ∧ decode w = .ok .beginFrame ∧ s.width ≠ 0 ∧ s.height ≠ 0 ∧
      s.anyReversed = true) := by
  have hf := faulted_eq_false_of_faultOf h
  cases hd : decode w with
  | error e => simp_all [faultOf]
  | ok i =>
    cases i with
    | nop | getReg r | mapSample c imm => simp [faultOf, hf, hd] at h
    | setReg r imm | pix imm => cases hb : s.busy <;> simp_all [faultOf]
    | beginFrame =>
      cases hb : s.busy with
      | true => simp_all [faultOf]
      | false =>
        rw [faultOf_beginFrame hd hf hb] at h
        cases hg : s.emptyGrid with
        | true =>
          have hdim := s.emptyGrid_iff.mp hg
          simp_all
        | false =>
          have hdim := mt s.emptyGrid_iff.mpr (by simp [hg])
          cases hr : s.anyReversed <;> simp_all

theorem State.faultRecord_of_not_faulted {s : State} (h : s.faulted = false) : s.FaultRecord := by
  simp [State.FaultRecord, h]

/-- The word that raises a fault is a true record of it. -/
theorem State.faultRecord_enterFault {w : Word32} {s : State} {k : Cause}
    (h : faultOf w s = some k) : (s.enterFault k w).FaultRecord := by
  intro _
  simp only [State.enterFault_status, statusCause_takeFault, State.enterFault_fword,
    State.enterFault_busy, State.enterFault_width, State.enterFault_height]
  rcases faultOf_cases h with
    ⟨rfl, hwhy⟩ | ⟨rfl, hwhy⟩ | ⟨rfl, hwhy⟩ | ⟨rfl, hwhy⟩ | ⟨rfl, hwhy⟩
  · exact .inl ⟨rfl, hwhy⟩
  · exact .inr (.inl ⟨rfl, hwhy⟩)
  · exact .inr (.inr (.inl ⟨rfl, hwhy⟩))
  · exact .inr (.inr (.inr (.inl ⟨rfl, hwhy⟩)))
  · exact .inr (.inr (.inr (.inr ⟨rfl, hwhy⟩)))

/-- Settles O36: fault entry makes a true record, and no other effect but reset touches a faulted
block's registers. -/
theorem stepKeepsTheFaultRecord : Obligations.StepKeepsTheFaultRecord := by
  intro s t hinv h hstep
  cases step_effect hstep with
  | idles | offers | answers => exact h
  | faults _ _ _ _ hfault => exact State.faultRecord_enterFault hfault
  | sets _ _ _ _ _ hidle hwrite =>
    obtain ⟨hstatus, -⟩ := State.writeReg_frame _ hwrite
    obtain ⟨-, -, hfaulted⟩ := State.flags_of_status hstatus
    exact State.faultRecord_of_not_faulted (hfaulted.trans (s.phase_idle_iff.mp hidle).1)
  | opens _ _ _ _ _ hidle =>
    exact State.faultRecord_of_not_faulted
      ((State.openFrame_faulted _).trans (s.phase_idle_iff.mp hidle).1)
  | emits p q env px hoffer =>
    obtain ⟨hbusy, -⟩ := hinv.pixel_of_mayOffer hoffer
    obtain ⟨hfaulted, -⟩ :=
      ((s.withPorts none p q env).appendPixel px).advance_keeps_fault_fields px.eol px.eof
    exact State.faultRecord_of_not_faulted (hfaulted.trans (s.phase_busy_iff.mp hbusy).1)
  | resets => exact State.faultRecord_of_not_faulted (State.resetBlock_faulted _)

/-- Settles O35: at reset no fault is recorded, and every register is 0. -/
theorem faultRecordHoldsAtReset : Obligations.FaultRecordHoldsAtReset :=
  ⟨State.faultRecord_of_not_faulted rfl, State.inv_resetBlock State.reset⟩

/-! ### Leaving a frame and leaving a fault -/

/-- Settles O29: in a frame the effects that change the phase are fault entry, the last pixel and
reset. -/
theorem openFrameIsLeftOnlyThreeWays : Obligations.OpenFrameIsLeftOnlyThreeWays := by
  intro s t hinv hbusy hstep
  cases step_effect hstep with
  | idles | offers | answers => exact .inl hbusy
  | faults => exact .inr (.inl ((State.phase_faulted_iff _).mpr (State.enterFault_faulted ..)))
  | sets _ _ _ _ _ hidle | opens _ _ _ _ _ hidle => simp [hbusy] at hidle
  | emits p q env px =>
    cases heof : px.eof with
    | true =>
      refine .inr (.inr (.inl ⟨?_, State.closeFrame_done _, px, heof, rfl⟩))
      obtain ⟨hf, -⟩ := s.phase_busy_iff.mp hbusy
      rw [State.advance_eof, State.phase_idle_iff, State.closeFrame_faulted]
      exact ⟨hf, State.closeFrame_busy _⟩
    | false =>
      refine .inl (Eq.trans ?_ hbusy)
      rw [State.phase, State.advance_status_of_open]
      rfl
  | resets _ _ _ hnext => exact .inr (.inr (.inr ⟨_, hnext⟩))

/-- Settles O33: in phase FAULTED no command but GET has an effect, and no pixel waits. -/
theorem faultIsLeftOnlyByReset : Obligations.FaultIsLeftOnlyByReset := by
  intro s t hinv hs hstep
  cases step_effect hstep with
  | idles | offers | answers => exact .inl ⟨hs, fun _ _ => rfl, rfl⟩
  | faults _ _ _ _ hfault =>
    simp [s.phase_faulted_iff, faulted_eq_false_of_faultOf hfault] at hs
  | sets _ _ _ _ _ hidle | opens _ _ _ _ _ hidle => simp [hs] at hidle
  | emits p q env px hoffer =>
    obtain ⟨hbusy, -⟩ := hinv.pixel_of_mayOffer hoffer
    simp [hs] at hbusy
  | resets _ _ _ hnext => exact .inr ⟨_, hnext, State.resetBlock_phase _⟩

end Sys2Proof.Machine
end

section
/-! PROOFS. The statements that tie host steps to the machine's steps and a faulted run to its
command (`70_reset_and_hazards.md` R171; `20_memory.md` R53, R55). -/

namespace Sys2Proof.Machine

/-! ### Host steps end with no word on offer -/

/-- A host step has a next state, with its command retired. -/
theorem exists_hostStep (x : HostStep) {s : State} (hs : s.held = none) :
    ∃ t, hostStep x s = .next t ∧ t.held = none := by
  cases x with
  | reset => exact ⟨s.resetBlock, rfl, rfl⟩
  | command w =>
    obtain ⟨t, ht, hheld, -⟩ := hostStep_command_cases w hs
    exact ⟨t, ht, hheld⟩

theorem exists_runSteps (steps : List HostStep) {s : State} (hs : s.held = none) :
    ∃ t, runSteps steps s = .next t ∧ t.held = none := by
  induction steps generalizing s with
  | nil => exact ⟨s, rfl, hs⟩
  | cons x xs ih =>
    obtain ⟨u, hu, hheld⟩ := exists_hostStep x hs
    obtain ⟨t, ht, hheld'⟩ := ih hheld
    exact ⟨t, by rw [runSteps_cons hu, ht], hheld'⟩

/-- A sequence of host steps and one more. -/
theorem exists_runSteps_concat {steps : List HostStep} {x : HostStep} {s t : State}
    (hs : s.held = none) (ht : runSteps (steps ++ [x]) s = .next t) :
    ∃ u, runSteps steps s = .next u ∧ u.held = none ∧ hostStep x u = .next t := by
  obtain ⟨u, hu, hheld⟩ := exists_runSteps steps hs
  obtain ⟨t', ht', -⟩ := exists_hostStep x hheld
  rw [runSteps_append hu, runSteps_cons ht', runSteps_nil, Host.Outcome.next.injEq] at ht
  exact ⟨u, hu, hheld, ht ▸ ht'⟩

/-! ### The command at which a run aborted -/

/-- A host step that ends with `FAULT` 1 either found the record there and left it, or is the
command that made it. -/
theorem hostStep_faulted {x : HostStep} {s t : State} (hs : s.held = none)
    (ht : hostStep x s = .next t) (hf : t.faulted = true) :
    (x ≠ .reset ∧ s.faulted = true ∧ t.fword = s.fword) ∨
      (x = .command t.fword ∧ (faultOf t.fword s).isSome = true) := by
  cases x with
  | reset =>
    obtain rfl : s.resetBlock = t := by simpa using ht
    simp at hf
  | command w =>
    obtain ⟨t', ht', -, hcases⟩ := hostStep_command_cases w hs
    obtain rfl : t = t' := by rwa [ht, Host.Outcome.next.injEq] at ht'
    rcases hcases with ⟨_, rfl, _⟩ | ⟨k, hk, _, rfl⟩ | ⟨r, imm, _, hs', _, _, hwrite⟩ |
      ⟨_, hs', _, _, _, _, _, rfl⟩ | ⟨r, v, _, _, _, rfl⟩ | ⟨c, imm, rg, _, _, _, _, rfl⟩ |
      ⟨imm, _, hs', _, _, rfl⟩
    · exact .inl ⟨by simp, hf, rfl⟩
    · exact .inr ⟨rfl, by simp [hk]⟩
    · obtain ⟨hstatus, -⟩ := s.writeReg_frame hwrite
      obtain ⟨-, -, hfaulted⟩ := State.flags_of_status hstatus
      simp [hfaulted, hs'] at hf
    · simp [hs'] at hf
    · exact .inl ⟨by simp, hf, rfl⟩
    · exact .inl ⟨by simp, hf, rfl⟩
    · obtain ⟨hfaulted, -⟩ :=
        (s.appendPixel (s.pixelOf imm)).advance_keeps_fault_fields s.atRowEnd s.atFrameEnd
      simp [hfaulted, hs'] at hf

/-- Settles O56: the last step either made the record, or left the one that the run before it ends
with. -/
theorem faultedRunAbortedAtFword : Obligations.FaultedRunAbortedAtFword := by
  intro steps s t hs hsound ht hf
  have haborted : t.abortedAt = some t.fword := if_pos hf
  simp only [haborted, and_true]
  induction steps using List.reverseRecOn generalizing t with
  | nil =>
    obtain rfl : s = t := by simpa using ht
    simp [hsound] at hf
  | append_singleton xs x ih =>
    obtain ⟨u, hu, hheld, hx⟩ := exists_runSteps_concat hs ht
    rcases hostStep_faulted hheld hx hf with ⟨hreset, hfu, hfword⟩ | ⟨rfl, hraises⟩
    · obtain ⟨before, after, v, rfl, hafter, hbefore, hraises⟩ := ih u hu hfu (if_pos hfu)
      rw [← hfword] at hraises ⊢
      exact ⟨before, after ++ [x], v, by simp, by simp [hafter, hreset.symm], hbefore, hraises⟩
    · exact ⟨xs, [], u, rfl, by simp, hu, hraises⟩

/-! ### Host steps on the machine -/

theorem State.withPorts_of_none {s : State} (hs : s.held = none) (env : List EnvAction) :
    s.withPorts none s.pReady s.rReady env = { s with env := env } := by
  rw [← hs]
  rfl

/-- A command in a run does, whatever the pins, what accepting its word does with both sinks ready.
-/
theorem exists_hostStep_command_ready (w : Word32) (s : State) :
    ∃ t : State, ∀ p q env,
      hostStep (.command w) (s.withPorts none p q env) = .next (t.withPorts none p q env) ∧
      acceptWord w (s.withPorts none true true env) = .next (t.withPorts none true true env) := by
  rcases usesPortsToEmit_acceptWord (s := s) w with ⟨t, ht⟩ | ⟨o, ho⟩
  · refine ⟨t, fun p q env => ⟨?_, ht none true true env⟩⟩
    rw [hostStep, ht, thenDo_next, State.retire_of_none rfl]
  · refine ⟨s.transfer o, fun p q env => ⟨?_, ?_⟩⟩
    · rw [hostStep, ho, thenDo_next, State.emit_retire _ rfl, State.transfer_withPorts]
    · rw [ho, State.emit_of_ready (by cases o <;> rfl), State.transfer_withPorts]

/-- With both sinks ready a host step is the machine's step on its action. -/
theorem exists_hostStep_ready (x : HostStep) (s : State) :
    ∃ t : State, ∀ env,
      hostStep x (s.withPorts none true true env) = .next (t.withPorts none true true env) ∧
      step (s.withPorts none true true (x.action :: env)) =
        .next (t.withPorts none true true env) := by
  cases x with
  | reset => exact ⟨s.resetBlock, fun env => ⟨rfl, rfl⟩⟩
  | command w =>
    obtain ⟨t, ht⟩ := exists_hostStep_command_ready w s
    refine ⟨t, fun env => ⟨(ht true true env).1, ?_⟩⟩
    rw [step_of_nextAction (State.nextAction_of_head (.inl rfl) rfl)]
    exact (ht true true env).2

theorem run_succ_of_step {M : Host.Core} {n : Nat} {s t : M.State} (h : M.step s = .next t) :
    M.run (n + 1) s = M.run n t := by
  rw [Host.Core.run, h]

theorem core_run_eq_runSteps (steps : List HostStep) (rest : List EnvAction) (s : State) :
    Sys2Proof.core.run steps.length
        (s.withPorts none true true (steps.map HostStep.action ++ rest)) =
      runSteps steps (s.withPorts none true true rest) := by
  induction steps generalizing s with
  | nil => rfl
  | cons x xs ih =>
    obtain ⟨t, ht⟩ := exists_hostStep_ready x s
    rw [runSteps_cons (ht rest).1, ← ih t]
    exact run_succ_of_step (M := Sys2Proof.core) (ht _).2

section
variable {w : Word32} {s t : State} {rest : List EnvAction}

/-- The pixel sink becomes ready just after a word was accepted: as if it had been ready before. -/
theorem step_drivePixelReady_of_acceptWord (hs : s.held = none) (ht : acceptWord w s = .next t)
    (henv : s.env = .drivePixelReady true :: rest) :
    step t = acceptWord w (s.withPorts none true s.rReady rest) := by
  have hf : UsesPortsToEmit (acceptWord w) s := usesPortsToEmit_acceptWord w
  obtain ⟨-, hq, he⟩ := hf.sameWorld hs ht
  rw [step_of_nextAction (State.nextAction_of_head (.inr rfl) (he.trans henv)),
    ← hf.settle hs ht (.inr ⟨fun _ => rfl, id⟩), ← hq]
  rfl

theorem step_driveResponseReady_of_acceptWord (hs : s.held = none)
    (ht : acceptWord w s = .next t) (henv : s.env = .driveResponseReady true :: rest) :
    step t = acceptWord w (s.withPorts none s.pReady true rest) := by
  have hf : UsesPortsToEmit (acceptWord w) s := usesPortsToEmit_acceptWord w
  obtain ⟨hp, -, he⟩ := hf.sameWorld hs ht
  rw [step_of_nextAction (State.nextAction_of_head (.inr rfl) (he.trans henv)),
    ← hf.settle hs ht (.inr ⟨id, fun _ => rfl⟩), ← hp]
  rfl

end

/-- Settles O57: with ready sinks step by step; and where the sinks become ready after the word,
each pin's step leaves what accepting the word with that pin ready would have left. -/
theorem hostStepsAreStepsOfTheMachine : Obligations.HostStepsAreStepsOfTheMachine := by
  refine ⟨fun steps rest s hs hp hq henv => ?ready, fun w rest s hs henv => ?delayed⟩
  case ready =>
    have hports : ∀ env, s.withPorts none true true env = { s with env := env } := by
      intro env
      rw [← State.withPorts_of_none hs, hp, hq]
    have hrun := core_run_eq_runSteps steps rest s
    rw [← henv, hports, hports] at hrun
    exact hrun
  case delayed =>
    obtain ⟨t, ht⟩ := exists_hostStep_command_ready w s
    refine ⟨t.withPorts none s.pReady s.rReady rest, ?host, ?machine⟩
    case host =>
      rw [← State.withPorts_of_none hs]
      exact (ht s.pReady s.rReady rest).1
    case machine =>
      obtain ⟨t1, ht1, -⟩ := acceptWord_cases w
        (s.withPorts none s.pReady s.rReady
          (.drivePixelReady true :: .driveResponseReady true :: rest))
      obtain ⟨t2, ht2, -⟩ := acceptWord_cases w
        (s.withPorts none true s.rReady (.driveResponseReady true :: rest))
      have hstep : step s = .next t1 := by
        rw [step_of_nextAction (State.nextAction_of_head (.inl hs) henv), ← ht1,
          State.withPorts_of_none hs]
        rfl
      have hstep1 : step t1 = .next t2 := by
        rw [step_drivePixelReady_of_acceptWord rfl ht1 rfl, ← ht2]
        rfl
      have hstep2 : step t2 = .next (t.withPorts none true true rest) := by
        rw [step_driveResponseReady_of_acceptWord rfl ht2 rfl, ← (ht true true rest).2]
        rfl
      calc
        Sys2Proof.core.run 3 s = Sys2Proof.core.run 2 t1 := run_succ_of_step hstep
        _ = Sys2Proof.core.run 1 t2 := run_succ_of_step hstep1
        _ = .next (t.withPorts none true true rest) := run_succ_of_step hstep2

end Sys2Proof.Machine
end

section
/-! PROOFS. The statements about the traversal of one frame (`41_frame.md` R110 to R114, R121). -/

namespace Sys2Proof.Machine

/-! ### The marks of a frame's pixels -/

section
variable {s : State} {vs : List Word16}

/-- Short of the last sample no pixel ends the frame. -/
theorem framePixel_eof_of_short (h : vs.length < s.width.toNat * s.height.toNat) :
    ∀ p ∈ vs.mapIdx (framePixel s), p.eof = false := by
  intro p hp
  obtain ⟨n, hn, rfl⟩ := List.mem_mapIdx.mp hp
  exact decide_eq_false (by omega)

/-- The last of all the samples makes the one pixel that ends the frame. -/
theorem framePixel_eof_of_whole (hsize : 0 < s.width.toNat * s.height.toNat)
    (h : vs.length = s.width.toNat * s.height.toNat) :
    ∃ p, (vs.mapIdx (framePixel s)).getLast? = some p ∧ p.eof = true ∧
      ((vs.mapIdx (framePixel s)).filter fun q => q.eof) = [p] := by
  obtain rfl | ⟨vs, v, rfl⟩ := vs.eq_nil_or_concat
  · exact absurd hsize (by simp [← h])
  rw [List.concat_eq_append, List.length_append, List.length_singleton] at h
  have hlast : (framePixel s vs.length v).eof = true := decide_eq_true h
  have hshort : ((vs.mapIdx (framePixel s)).filter fun q => q.eof) = [] := by
    rw [List.filter_eq_nil_iff]
    intro p hp
    simp [framePixel_eof_of_short (by omega) p hp]
  refine ⟨framePixel s vs.length v, ?_, hlast, ?_⟩ <;>
    rw [List.concat_eq_append, List.mapIdx_concat]
  · exact List.getLast?_concat
  · simp [hshort, hlast]

/-- The pixels marked `eol` are those at the last column. -/
theorem length_filter_eol :
    ((vs.mapIdx (framePixel s)).filter fun q => q.eol).length =
      Nat.count (fun n => n % s.width.toNat + 1 = s.width.toNat) vs.length := by
  induction vs using List.reverseRecOn with
  | nil => rfl
  | append_singleton vs v ih =>
    rw [List.mapIdx_concat, List.filter_append, List.length_append, ih, List.length_append,
      List.length_singleton, Nat.count_succ]
    congr 1
    simp only [framePixel, List.filter_cons, List.filter_nil, decide_eq_true_eq]
    split <;> rfl

end

/-- Each of the `H` rows of `W` numbers has one last column. -/
theorem count_last_column {W : Nat} (hW : 0 < W) (H : Nat) :
    Nat.count (fun n => n % W + 1 = W) (W * H) = H := by
  have hcolumn : ∀ n, n % W + 1 = W ↔ n ≡ W - 1 [MOD W] := by
    intro n
    rw [Nat.ModEq, Nat.mod_eq_of_lt (Nat.sub_lt hW Nat.one_pos)]
    omega
  simp only [hcolumn, Nat.count_modEq_card _ hW]
  simp [hW]

/-! ### One command of a frame -/

section
variable {s₀ s : State} {n : Nat}

theorem hostStep_encode {i : Instr} {t : State} (h : exec i s = .next t) :
    hostStep (.command (encode i)) s = .next t.retire := by
  rw [hostStep, acceptWord_encode, h, thenDo_next]

/-- NOP, GET and MAP in a frame: responses, as many as the command answers, and nothing else. -/
theorem hostStep_read {i : Instr} (hi : mayStandInFrame i = true) (hv : sampleOf i = none)
    (hs : s.held = none) (hf : s.faulted = false) :
    ∃ ws, hostStep (.command (encode i)) s =
        .next { s with responses := s.responses ++ ws } ∧
      ws.length = ([i].filter answers).length := by
  rcases exec_read hi hv s with ⟨hrun, hanswers⟩ | ⟨v, hrun, hanswers⟩
  · refine ⟨[], ?_, by simp [hanswers hf]⟩
    rw [hostStep_encode hrun, State.retire_of_none hs, List.append_nil]
  · refine ⟨[v], ?_, by simp [hanswers]⟩
    rw [hostStep_encode hrun, State.emit_retire _ hs]
    rfl

/-- PIX in a frame: the pixel of the sample, and the move its marks name. -/
theorem hostStep_pix (v : Word16) (hs : s.held = none) (hbusy : s.phase = .busy) :
    hostStep (.command (encode (.pix v))) s =
      .next ((s.appendPixel (s.pixelOf v)).advance s.atRowEnd s.atFrameEnd) := by
  obtain ⟨hf, hb⟩ := s.phase_busy_iff.mp hbusy
  rw [hostStep_encode (execPix_eq hf hb), State.emit_retire _ hs]
  rfl

theorem SameConfig.withResponses (h : SameConfig s₀ s) (ws : List Word32) :
    SameConfig s₀ { s with responses := ws } :=
  ⟨h.lo0, h.hi0, h.lo1, h.hi1, h.lo2, h.hi2, h.width, h.height⟩

theorem AtSample.withResponses (h : AtSample s₀ n s) (ws : List Word32) :
    AtSample s₀ n { s with responses := ws } :=
  ⟨h.config.withResponses ws, h.column, h.row, h.inside⟩

/-- A frame of a grid that is not empty starts at sample 0. -/
theorem AtSample.start (hx : s.xpos = 0) (hy : s.ypos = 0)
    (hsize : 0 < s.width.toNat * s.height.toNat) : AtSample s 0 s where
  config := ⟨rfl, rfl, rfl, rfl, rfl, rfl, rfl, rfl⟩
  column := by simp [hx]
  row := by simp [hy]
  inside := hsize

end

/-! ### The commands of a frame so far -/

/-- What the commands `is` of the frame opened in `s₀` leave: their pixels and responses, and the
place of the next sample or, after the last one, the closed frame. -/
structure FrameProgress (s₀ : State) (is : List Instr) (s : State) : Prop where
  held : s.held = none
  config : SameConfig s₀ s
  pixels : s.pixels = s₀.pixels ++ (is.filterMap sampleOf).mapIdx (framePixel s₀)
  responses : ∃ rs, s.responses = s₀.responses ++ rs ∧ rs.length = (is.filter answers).length
  fword : s.fword = s₀.fword
  world : SameWorld s₀ s
  place : (s.status = s₀.status ∧ AtSample s₀ (is.filterMap sampleOf).length s) ∨
    ((is.filterMap sampleOf).length = s₀.width.toNat * s₀.height.toNat ∧
      s.status = statusCloseFrame s₀.status ∧ s.xpos = 0 ∧ s.ypos = 0)

section
variable {s₀ s : State} {is : List Instr}

theorem FrameProgress.start (hs : s₀.held = none) (h : AtSample s₀ 0 s₀) :
    FrameProgress s₀ [] s₀ where
  held := hs
  config := h.config
  pixels := by simp
  responses := ⟨[], by simp⟩
  fword := rfl
  world := ⟨rfl, rfl, rfl⟩
  place := .inl ⟨rfl, h⟩

theorem FrameProgress.faulted (h : FrameProgress s₀ is s) (hbusy : s₀.phase = .busy) :
    s.faulted = false := by
  obtain ⟨hf, -⟩ := s₀.phase_busy_iff.mp hbusy
  rcases h.place with ⟨hstatus, -⟩ | ⟨-, hstatus, -⟩ <;> rw [State.faulted, hstatus]
  · exact hf
  · rw [statusFault_closeFrame]
    exact hf

/-- While samples are missing the frame is open at the place of the next one. -/
theorem FrameProgress.busy_of_lt (h : FrameProgress s₀ is s) (hbusy : s₀.phase = .busy)
    (hlt : (is.filterMap sampleOf).length < s₀.width.toNat * s₀.height.toNat) :
    s.phase = .busy ∧ s.status = s₀.status ∧ AtSample s₀ (is.filterMap sampleOf).length s := by
  rcases h.place with ⟨hstatus, hat⟩ | ⟨heq, -⟩
  · refine ⟨?_, hstatus, hat⟩
    rw [State.phase, hstatus]
    exact hbusy
  · omega

theorem FrameProgress.read {i : Instr} (h : FrameProgress s₀ is s) (hbusy : s₀.phase = .busy)
    (hi : mayStandInFrame i = true) (hv : sampleOf i = none) :
    ∃ t, hostStep (.command (encode i)) s = .next t ∧ FrameProgress s₀ (is ++ [i]) t := by
  obtain ⟨ws, hrun, hws⟩ := hostStep_read hi hv h.held (h.faulted hbusy)
  have hsamples : (is ++ [i]).filterMap sampleOf = is.filterMap sampleOf := by simp [hv]
  obtain ⟨rs, hrs, hlen⟩ := h.responses
  exact ⟨_, hrun, {
    held := h.held
    config := h.config.withResponses _
    pixels := by rw [hsamples]; exact h.pixels
    responses := ⟨rs ++ ws, by simp [hrs], by simp only [List.length_append, List.filter_append,
      hlen, hws]⟩
    fword := h.fword
    world := h.world
    place := by
      rw [hsamples]
      exact h.place.imp_left fun ⟨hstatus, hat⟩ => ⟨hstatus, hat.withResponses _⟩ }⟩

theorem FrameProgress.pix {v : Word16} (h : FrameProgress s₀ is s) (hbusy : s₀.phase = .busy)
    (hlt : (is.filterMap sampleOf).length < s₀.width.toNat * s₀.height.toNat) :
    ∃ t, hostStep (.command (encode (.pix v))) s = .next t ∧
      FrameProgress s₀ (is ++ [.pix v]) t := by
  obtain ⟨hopen, hstatus, hat⟩ := h.busy_of_lt hbusy hlt
  obtain ⟨hconfig, hpixels, hfword, hresponses, ⟨hp, hq, he⟩, hplace⟩ := hat.advance v rfl
  obtain ⟨hp₀, hq₀, he₀⟩ := h.world
  have hsamples : (is ++ [Instr.pix v]).filterMap sampleOf = is.filterMap sampleOf ++ [v] := by
    simp [sampleOf]
  exact ⟨_, hostStep_pix v h.held hopen, {
    held := by simp [h.held]
    config := hconfig
    pixels := by rw [hsamples, List.mapIdx_concat, hpixels, h.pixels, List.append_assoc]
    responses := by simpa [hresponses, answers] using h.responses
    fword := hfword.trans h.fword
    world := ⟨hp.trans hp₀, hq.trans hq₀, he.trans he₀⟩
    place := by
      rw [hsamples, List.length_append, List.length_singleton, ← hstatus]
      exact hplace.imp_left fun ⟨_, hsame, hnext⟩ => ⟨hsame, hnext⟩ }⟩

theorem eq_pix_of_sampleOf {i : Instr} {v : Word16} (h : sampleOf i = some v) : i = .pix v := by
  cases i <;> simp_all [sampleOf]

/-- Commands that may stand in a frame, with no more PIX than it has samples, make its progress. -/
theorem runSteps_frame (hbusy : s₀.phase = .busy) (hs : s₀.held = none) (hat : AtSample s₀ 0 s₀)
    (hin : ∀ i ∈ is, mayStandInFrame i = true)
    (hle : (is.filterMap sampleOf).length ≤ s₀.width.toNat * s₀.height.toNat) :
    ∃ t, runSteps (present is) s₀ = .next t ∧ FrameProgress s₀ is t := by
  induction is using List.reverseRecOn with
  | nil => exact ⟨s₀, rfl, .start hs hat⟩
  | append_singleton is i ih =>
    have hi : mayStandInFrame i = true := hin i (by simp)
    rw [List.filterMap_append, List.length_append] at hle
    obtain ⟨t, ht, hprogress⟩ := ih (fun j hj => hin j (by simp [hj])) (by omega)
    have hstep : ∃ u, hostStep (.command (encode i)) t = .next u ∧
        FrameProgress s₀ (is ++ [i]) u := by
      cases hv : sampleOf i with
      | none => exact hprogress.read hbusy hi hv
      | some v =>
        obtain rfl := eq_pix_of_sampleOf hv
        exact hprogress.pix hbusy (by simp [hv] at hle; omega)
    obtain ⟨u, hu, hnext⟩ := hstep
    refine ⟨u, ?_, hnext⟩
    rw [present, List.map_append, ← present, runSteps_append ht]
    exact runSteps_cons hu

theorem SameConfig.regsSameBut {l : List Nat} (h : SameConfig s₀ s)
    (h8 : 8 ∈ l ∨ s.status = s₀.status) (h9 : 9 ∈ l) (h10 : 10 ∈ l) (hfword : s.fword = s₀.fword) :
    RegsSameBut l s₀ s :=
  RegsSameBut.of_config ⟨h.lo0, h.hi0, h.lo1, h.hi1, h.lo2, h.hi2, h.width, h.height⟩ h8 (.inl h9)
    (.inl h10) (.inr hfword)

end

/-- Settles O27: the progress of a frame that still misses samples. -/
theorem pixTraversalIsRowMajor : Obligations.PixTraversalIsRowMajor := by
  rintro is vs s hin rfl hbusy hs hx hy hlt
  have hat : AtSample s 0 s := .start hx hy (Nat.zero_lt_of_lt hlt)
  obtain ⟨t, ht, hprogress⟩ := runSteps_frame hbusy hs hat hin hlt.le
  obtain ⟨hopen, hstatus, hplace⟩ := hprogress.busy_of_lt hbusy hlt
  obtain ⟨rs, hrs, hlen⟩ := hprogress.responses
  refine ⟨t, rs, ht, hopen, hprogress.held, hplace.column, hplace.row, hprogress.pixels, hrs, hlen,
    hprogress.config.regsSameBut (.inr hstatus) (by simp) (by simp) hprogress.fword,
    hprogress.world, fun v => ⟨_, hostStep_pix v hprogress.held hopen, ?_⟩⟩
  obtain ⟨-, hpixels, -⟩ := hplace.advance v rfl
  exact hpixels

/-- Settles O28: the progress of a frame that has all its samples, and the marks of its pixels. -/
theorem frameHasTheShapeOfItsGrid : Obligations.FrameHasTheShapeOfItsGrid := by
  rintro is vs s hin rfl hbusy hs hx hy hsize hall
  have hat : AtSample s 0 s := .start hx hy hsize
  obtain ⟨t, ht, hprogress⟩ := runSteps_frame hbusy hs hat hin hall.le
  obtain ⟨rs, hrs, hlen⟩ := hprogress.responses
  obtain ⟨p, hlast, heof, hone⟩ := framePixel_eof_of_whole hsize hall
  obtain ⟨hstatus, hx', hy'⟩ : t.status = statusCloseFrame s.status ∧ t.xpos = 0 ∧ t.ypos = 0 := by
    rcases hprogress.place with ⟨-, hplace⟩ | ⟨-, hclosed⟩
    · exact absurd hplace.inside (by omega)
    · exact hclosed
  have hidle : t.phase = .idle := by
    rw [State.phase_idle_iff, State.busy, hstatus]
    exact ⟨hprogress.faulted hbusy, statusBusy_closeFrame _⟩
  have hdone : t.done = true := by
    rw [State.done, hstatus, statusDone_closeFrame]
  have hrows : (((is.filterMap sampleOf).mapIdx (framePixel s)).filter fun q => q.eol).length =
      s.height.toNat := by
    rw [length_filter_eol, hall, count_last_column hat.width_pos]
  exact ⟨t, _, p, rs, ht, hprogress.pixels, rfl, by rw [List.length_mapIdx, hall], hrows, hlast,
    heof, hone, hrs, hlen, hidle, hdone, hprogress.held, hx', hy',
    hprogress.config.regsSameBut (.inl (by simp)) (by simp) (by simp) hprogress.fword,
    hprogress.world, fun v => ⟨_, execPix_seq hidle, .enterFault t _ _⟩⟩

end Sys2Proof.Machine
end

section
/-! PROOFS. The statements about the frames of a run (`70_reset_and_hazards.md` R171). -/

namespace Sys2Proof.Machine

/-! ### The frames of a run, one host step at a time -/

section
variable {x : HostStep} {xs : List HostStep} {s t : State}

theorem frameSamples_of_not_busy (h : s.phase ≠ .busy) : frameSamples xs s = [] := by
  cases xs with
  | nil => rfl
  | cons x xs => rw [frameSamples, if_neg h]

theorem frameSamples_cons (h : s.phase = .busy) (hx : hostStep x s = .next t) :
    frameSamples (x :: xs) s = x.sample.toList ++ frameSamples xs t := by
  rw [frameSamples, if_pos h, hx]

theorem framesOf_cons_of_opens (hx : hostStep x s = .next t) (h : opensFrame x s t = true) :
    framesOf (x :: xs) s = ⟨t, frameSamples xs t⟩ :: framesOf xs t := by
  rw [framesOf, hx]
  exact if_pos h

theorem framesOf_cons (hx : hostStep x s = .next t) (h : opensFrame x s t = false) :
    framesOf (x :: xs) s = framesOf xs t := by
  rw [framesOf, hx]
  exact if_neg (by simp [h])

theorem opensFrame_of_not_idle (h : s.phase ≠ .idle) : opensFrame x s t = false := by
  simp [opensFrame, h]

theorem opensFrame_of_not_busy (h : t.phase ≠ .busy) : opensFrame x s t = false := by
  simp [opensFrame, h]

theorem HostStep.sample_command {w : Word32} {i : Instr} (h : decode w = .ok i) :
    (HostStep.command w).sample = sampleOf i := by
  simp [HostStep.sample, h]

end

/-! ### What a host step does outside a frame and inside one -/

section
variable {s : State}

/-- Outside a frame a host step makes no pixel. It stays outside, and takes neither a fault nor
`BUSY` away unless it is a reset; or it is the BEGIN that opens a frame. -/
theorem hostStep_outside (x : HostStep) (hs : s.held = none) (hphase : s.phase ≠ .busy) :
    ∃ t, hostStep x s = .next t ∧ t.held = none ∧ t.pixels = s.pixels ∧
      ((t.phase ≠ .busy ∧
          (x ≠ .reset → t.busy = s.busy ∧ (t.faulted = false → s.faulted = false))) ∨
        (opensFrame x s t = true ∧ t.phase = .busy ∧ t.faulted = s.faulted ∧ AtSample t 0 t)) := by
  cases x with
  | reset => exact ⟨s.resetBlock, rfl, rfl, rfl, .inl (by simp)⟩
  | command w =>
    obtain ⟨t, ht, hheld, hcases⟩ := hostStep_command_cases w hs
    refine ⟨t, ht, hheld, ?_⟩
    rcases hcases with ⟨_, rfl, _⟩ | ⟨k, _, hf, rfl⟩ | ⟨r, imm, _, hf, hb, _, hwrite⟩ |
      ⟨_, hf, hb, hd, hw, hh, _, rfl⟩ | ⟨r, v, _, _, _, rfl⟩ | ⟨c, imm, rg, _, _, _, _, rfl⟩ |
      ⟨imm, _, hf, hb, _, rfl⟩
    · exact ⟨rfl, .inl ⟨hphase, fun _ => ⟨rfl, id⟩⟩⟩
    · exact ⟨rfl, .inl ⟨by simp [State.phase_busy_iff], fun _ => ⟨s.enterFault_busy .., by simp⟩⟩⟩
    · obtain ⟨hstatus, -, -, -, -, hpixels, -⟩ := s.writeReg_frame hwrite
      obtain ⟨hbusy, -, hfaulted⟩ := State.flags_of_status hstatus
      exact ⟨hpixels, .inl ⟨by simp [State.phase_busy_iff, hbusy, hb],
        fun _ => ⟨hbusy, fun _ => hf⟩⟩⟩
    · have hopen : s.openFrame.phase = .busy := by simp [State.phase_busy_iff, hf]
      have hidle : s.phase = .idle := s.phase_idle_iff.mpr ⟨hf, hb⟩
      have hsize : 0 < s.width.toNat * s.height.toNat :=
        Nat.mul_pos (BitVec.toNat_pos_of_ne_zero hw) (BitVec.toNat_pos_of_ne_zero hh)
      refine ⟨rfl, .inr ⟨?_, hopen, s.openFrame_faulted, .start rfl rfl hsize⟩⟩
      simp [opensFrame, ← encode_of_decode hd, hidle, hopen]
    · exact ⟨rfl, .inl ⟨hphase, fun _ => ⟨rfl, id⟩⟩⟩
    · exact ⟨rfl, .inl ⟨hphase, fun _ => ⟨rfl, id⟩⟩⟩
    · exact absurd (s.phase_busy_iff.mpr ⟨hf, hb⟩) hphase

/-- A word that raises a fault in a frame is no PIX (`60_exceptions.md` R135). -/
theorem sample_of_faultOf {w : Word32} {k : Cause} (hb : s.busy = true)
    (h : faultOf w s = some k) : (HostStep.command w).sample = none := by
  rcases faultOf_cases h with ⟨_, hd⟩ | ⟨_, _, ⟨r, imm, hd⟩ | hd⟩ | ⟨_, hidle, _⟩ | ⟨_, hidle, _⟩ |
    ⟨_, hidle, _⟩
  · simp [HostStep.sample, hd]
  · rw [HostStep.sample_command hd, sampleOf]
  · rw [HostStep.sample_command hd, sampleOf]
  all_goals simp [hb] at hidle

/-- In a frame at sample `n` a host step leaves the frame there; or it is a PIX, after which the
frame is at the next sample or complete; or it cuts the frame short, by a fault or a reset. -/
theorem hostStep_inside (x : HostStep) {s₀ : State} {n : Nat} (hs : s.held = none)
    (hbusy : s.phase = .busy) (hat : AtSample s₀ n s) :
    ∃ t, hostStep x s = .next t ∧ t.held = none ∧
      ((x.sample = none ∧ t.pixels = s.pixels ∧ t.phase = .busy ∧ AtSample s₀ n t) ∨
        (∃ v, x.sample = some v ∧ t.pixels = s.pixels ++ [framePixel s₀ n v] ∧
          ((t.phase = .busy ∧ AtSample s₀ (n + 1) t) ∨
            (t.phase = .idle ∧ n + 1 = s₀.width.toNat * s₀.height.toNat))) ∨
        (x.sample = none ∧ t.pixels = s.pixels ∧ t.phase ≠ .busy ∧
          (x = .reset ∨ t.faulted = true))) := by
  obtain ⟨hf, hb⟩ := s.phase_busy_iff.mp hbusy
  cases x with
  | reset => exact ⟨s.resetBlock, rfl, rfl, .inr (.inr ⟨rfl, rfl, by simp, .inl rfl⟩)⟩
  | command w =>
    obtain ⟨t, ht, hheld, hcases⟩ := hostStep_command_cases w hs
    refine ⟨t, ht, hheld, ?_⟩
    rcases hcases with ⟨_, rfl, hnop | ⟨hfaulted, _⟩⟩ | ⟨k, hk, _, rfl⟩ | ⟨r, imm, _, _, hidle, _⟩ |
      ⟨_, _, hidle, _⟩ | ⟨r, v, _, hd, _, rfl⟩ | ⟨c, imm, rg, _, _, hd, _, rfl⟩ |
      ⟨imm, _, _, _, hd, rfl⟩
    · exact .inl ⟨HostStep.sample_command hnop, rfl, hbusy, hat⟩
    · simp [hf] at hfaulted
    · exact .inr (.inr ⟨sample_of_faultOf hb hk, rfl, by simp [State.phase_busy_iff],
        .inr (s.enterFault_faulted ..)⟩)
    · simp [hb] at hidle
    · simp [hb] at hidle
    · exact .inl ⟨HostStep.sample_command hd, rfl, hbusy, hat.withResponses _⟩
    · exact .inl ⟨HostStep.sample_command hd, rfl, hbusy, hat.withResponses _⟩
    · obtain ⟨-, hpixels, -, -, -, hplace⟩ := hat.advance imm rfl
      refine .inr (.inl ⟨imm, HostStep.sample_command hd, hpixels, ?_⟩)
      rcases hplace with ⟨_, hstatus, hnext⟩ | ⟨hlast, hstatus, _⟩
      · refine .inl ⟨?_, hnext⟩
        rw [State.phase, hstatus]
        exact hbusy
      · refine .inr ⟨?_, hlast⟩
        rw [State.phase_idle_iff, State.faulted, State.busy, hstatus]
        exact ⟨(statusFault_closeFrame _).trans hf, statusBusy_closeFrame _⟩

end

/-! ### The frames so far -/

/-- A frame with one more sample. -/
def RunFrame.push (f : RunFrame) (v : Word16) : RunFrame := ⟨f.opened, f.samples ++ [v]⟩

@[simp] theorem RunFrame.push_opened (f : RunFrame) (v : Word16) :
    (f.push v).opened = f.opened := rfl

@[simp] theorem RunFrame.push_samples (f : RunFrame) (v : Word16) :
    (f.push v).samples = f.samples ++ [v] := rfl

@[simp] theorem RunFrame.push_pixels (f : RunFrame) (v : Word16) :
    (f.push v).pixels = f.pixels ++ [framePixel f.opened f.samples.length v] :=
  List.mapIdx_concat

/-- The frames still to be reported where `cur` is the frame that is open in `s`, if there is one.
-/
def framesFrom (cur : Option RunFrame) (steps : List HostStep) (s : State) : List RunFrame :=
  match cur with
  | none => framesOf steps s
  | some f => ⟨f.opened, f.samples ++ frameSamples steps s⟩ :: framesOf steps s

/-- A run has come to `s`: its pixels are `base` and those of the frames in `closed` and of the open
frame `cur`, which is at its next sample. -/
structure FramesSoFar (base : List Pixel) (closed : List RunFrame) (cur : Option RunFrame)
    (s : State) : Prop where
  held : s.held = none
  pixels : s.pixels = base ++ (closed ++ cur.toList).flatMap RunFrame.pixels
  sound : ∀ f ∈ closed ++ cur.toList, f.opened.phase = .busy ∧ f.samples.length ≤ f.size
  outside : cur = none → s.phase ≠ .busy
  inside : ∀ f, cur = some f → s.phase = .busy ∧ AtSample f.opened f.samples.length s

/-- What a run without a reset keeps: a frame is closed whole or by a fault, and then it is the last
one. -/
structure ClosedByFaultOnly (closed : List RunFrame) (s : State) : Prop where
  whole : s.faulted = false → ∀ f ∈ closed, f.isWhole = true
  cut : s.faulted = true → s.busy = true →
    ∃ f, closed.getLast? = some f ∧ f.samples.length < f.size

section
variable {base : List Pixel} {closed : List RunFrame} {f : RunFrame} {x : HostStep}
  {xs : List HostStep} {s t : State} {v : Word16}

theorem framesFrom_cons_of_no_sample (hs : s.phase = .busy) (hx : hostStep x s = .next t)
    (hsample : x.sample = none) : framesFrom (some f) (x :: xs) s = framesFrom (some f) xs t := by
  rw [framesFrom, framesOf_cons hx (opensFrame_of_not_idle (by simp [hs])),
    frameSamples_cons hs hx, hsample]
  rfl

theorem framesFrom_cons_of_sample (hs : s.phase = .busy) (hx : hostStep x s = .next t)
    (hsample : x.sample = some v) :
    framesFrom (some f) (x :: xs) s = framesFrom (some (f.push v)) xs t := by
  rw [framesFrom, framesOf_cons hx (opensFrame_of_not_idle (by simp [hs])),
    frameSamples_cons hs hx, hsample, Option.toList_some, ← List.append_assoc]
  rfl

/-- A frame that is no longer open gets no more samples. -/
theorem framesFrom_of_not_busy (h : t.phase ≠ .busy) :
    framesFrom (some f) xs t = f :: framesFrom none xs t := by
  simp only [framesFrom, frameSamples_of_not_busy h, List.append_nil]

theorem RunFrame.isWhole_iff : f.isWhole = true ↔ f.samples.length = f.size := decide_eq_true_iff

theorem FramesSoFar.close (hheld : t.held = none)
    (hpixels : t.pixels = base ++ (closed ++ [f]).flatMap RunFrame.pixels)
    (hsound : ∀ g ∈ closed ++ [f], g.opened.phase = .busy ∧ g.samples.length ≤ g.size)
    (hphase : t.phase ≠ .busy) : FramesSoFar base (closed ++ [f]) none t where
  held := hheld
  pixels := by simpa using hpixels
  sound := by simpa using hsound
  outside _ := hphase
  inside := by simp

theorem FramesSoFar.stayOpen (hheld : t.held = none)
    (hpixels : t.pixels = base ++ (closed ++ [f]).flatMap RunFrame.pixels)
    (hsound : ∀ g ∈ closed ++ [f], g.opened.phase = .busy ∧ g.samples.length ≤ g.size)
    (hbusy : t.phase = .busy) (hat : AtSample f.opened f.samples.length t) :
    FramesSoFar base closed (some f) t where
  held := hheld
  pixels := hpixels
  sound := hsound
  outside := by simp
  inside g hg := by
    obtain rfl : f = g := Option.some.inj hg
    exact ⟨hbusy, hat⟩

theorem ClosedByFaultOnly.of_not_faulted (hf : t.faulted = false)
    (hwhole : ∀ g ∈ closed, g.isWhole = true) : ClosedByFaultOnly closed t :=
  ⟨fun _ => hwhole, by simp [hf]⟩

/-- A host step outside a frame. -/
theorem FramesSoFar.hostStep_outside (x : HostStep) (h : FramesSoFar base closed none s) :
    ∃ t closed' cur, hostStep x s = .next t ∧ FramesSoFar base closed' cur t ∧
      (∀ xs, closed ++ framesFrom none (x :: xs) s = closed' ++ framesFrom cur xs t) ∧
      (x ≠ .reset → ClosedByFaultOnly closed s → ClosedByFaultOnly closed' t) := by
  have hphase := h.outside rfl
  obtain ⟨t, ht, hheld, hpixels, ⟨hphase', hflags⟩ | ⟨hopens, hbusy, hfaulted, hat⟩⟩ :=
    Machine.hostStep_outside x h.held hphase
  · refine ⟨t, closed, none, ht,
      ⟨hheld, hpixels.trans h.pixels, h.sound, fun _ => hphase', by simp⟩,
      fun xs => congrArg _ (framesOf_cons ht (opensFrame_of_not_busy hphase')), fun hx hc => ?_⟩
    obtain ⟨hb, hf⟩ := hflags hx
    refine ⟨fun hsound => hc.whole (hf hsound), fun _ hbusy => ?_⟩
    have hfaulted : s.faulted = true := by
      by_contra hsound
      exact hphase (s.phase_busy_iff.mpr ⟨by simpa using hsound, hb ▸ hbusy⟩)
    exact hc.cut hfaulted (hb ▸ hbusy)
  · have hfresh : RunFrame.pixels ⟨t, []⟩ = [] := rfl
    obtain ⟨hsound, -⟩ := t.phase_busy_iff.mp hbusy
    refine ⟨t, closed, some ⟨t, []⟩, ht, .stayOpen hheld ?_ ?_ hbusy hat,
      fun xs => congrArg _ (framesOf_cons_of_opens ht hopens),
      fun _ hc => .of_not_faulted hsound (hc.whole (hfaulted ▸ hsound))⟩
    · simpa [hfresh, hpixels] using h.pixels
    · intro g hg
      rcases List.mem_append.mp hg with hg | hg
      · exact h.sound g (by simp [hg])
      · obtain rfl := List.mem_singleton.mp hg
        exact ⟨hbusy, Nat.zero_le _⟩

/-- A host step in the frame `f`. -/
theorem FramesSoFar.hostStep_inside (x : HostStep) (h : FramesSoFar base closed (some f) s) :
    ∃ t closed' cur, hostStep x s = .next t ∧ FramesSoFar base closed' cur t ∧
      (∀ xs, closed ++ framesFrom (some f) (x :: xs) s = closed' ++ framesFrom cur xs t) ∧
      (x ≠ .reset → ClosedByFaultOnly closed s → ClosedByFaultOnly closed' t) := by
  obtain ⟨hbusy, hat⟩ := h.inside f rfl
  obtain ⟨hf, -⟩ := s.phase_busy_iff.mp hbusy
  obtain ⟨t, ht, hheld, ⟨hsample, hpixels, hbusy', hat'⟩ | ⟨v, hsample, hpixels, hplace⟩ |
    ⟨hsample, hpixels, hphase, hwhy⟩⟩ := Machine.hostStep_inside x h.held hbusy hat
  · obtain ⟨hf', -⟩ := t.phase_busy_iff.mp hbusy'
    exact ⟨t, closed, some f, ht, .stayOpen hheld (hpixels.trans h.pixels) h.sound hbusy' hat',
      fun xs => congrArg _ (framesFrom_cons_of_no_sample hbusy ht hsample),
      fun _ hc => .of_not_faulted hf' (hc.whole hf)⟩
  · have hpixels' : t.pixels = base ++ (closed ++ [f.push v]).flatMap RunFrame.pixels := by
      rw [hpixels, h.pixels]
      simp
    have hsound : ∀ g ∈ closed ++ [f.push v],
        g.opened.phase = .busy ∧ g.samples.length ≤ g.size := by
      intro g hg
      rcases List.mem_append.mp hg with hg | hg
      · exact h.sound g (by simp [hg])
      · obtain rfl := List.mem_singleton.mp hg
        refine ⟨(h.sound f (by simp)).1, ?_⟩
        have hinside := hat.inside
        simp only [RunFrame.push_samples, List.length_append, List.length_singleton]
        exact hinside
    rcases hplace with ⟨hbusy', hat'⟩ | ⟨hidle, hlast⟩
    · obtain ⟨hf', -⟩ := t.phase_busy_iff.mp hbusy'
      refine ⟨t, closed, some (f.push v), ht, .stayOpen hheld hpixels' hsound hbusy' ?_,
        fun xs => congrArg _ (framesFrom_cons_of_sample hbusy ht hsample),
        fun _ hc => .of_not_faulted hf' (hc.whole hf)⟩
      simpa using hat'
    · obtain ⟨hf', -⟩ := t.phase_idle_iff.mp hidle
      have hphase : t.phase ≠ .busy := by simp [hidle]
      refine ⟨t, closed ++ [f.push v], none, ht, .close hheld hpixels' hsound hphase,
        fun xs => ?_, fun _ hc => .of_not_faulted hf' ?_⟩
      · rw [framesFrom_cons_of_sample hbusy ht hsample, framesFrom_of_not_busy hphase,
          List.append_assoc, List.singleton_append]
      · intro g hg
        rcases List.mem_append.mp hg with hg | hg
        · exact hc.whole hf g hg
        · obtain rfl := List.mem_singleton.mp hg
          rw [RunFrame.isWhole_iff, RunFrame.push_samples, List.length_append]
          exact hlast
  · refine ⟨t, closed ++ [f], none, ht, .close hheld (hpixels.trans h.pixels) h.sound hphase,
      fun xs => ?_, fun hx _ => ?_⟩
    · rw [framesFrom_cons_of_no_sample hbusy ht hsample, framesFrom_of_not_busy hphase,
        List.append_assoc, List.singleton_append]
    · have hfault : t.faulted = true := hwhy.resolve_left hx
      exact ⟨by simp [hfault], fun _ _ => ⟨f, List.getLast?_concat, hat.inside⟩⟩

/-- Any host steps: the frames of the run so far and those that follow are the frames at its end. -/
theorem FramesSoFar.runSteps {cur : Option RunFrame} (steps : List HostStep)
    (h : FramesSoFar base closed cur s) :
    ∃ t closed' cur', runSteps steps s = .next t ∧ FramesSoFar base closed' cur' t ∧
      closed ++ framesFrom cur steps s = closed' ++ cur'.toList ∧
      (.reset ∉ steps → ClosedByFaultOnly closed s → ClosedByFaultOnly closed' t) := by
  induction steps generalizing closed cur s with
  | nil =>
    refine ⟨s, closed, cur, rfl, h, ?_, fun _ => id⟩
    cases cur with
    | none => rfl
    | some f => simp [framesFrom, frameSamples, framesOf]
  | cons x xs ih =>
    obtain ⟨u, closed₁, cur₁, hu, h₁, hframes₁, hclosed₁⟩ :
        ∃ u closed₁ cur₁, hostStep x s = .next u ∧ FramesSoFar base closed₁ cur₁ u ∧
          (∀ xs, closed ++ framesFrom cur (x :: xs) s = closed₁ ++ framesFrom cur₁ xs u) ∧
          (x ≠ .reset → ClosedByFaultOnly closed s → ClosedByFaultOnly closed₁ u) := by
      cases cur with
      | none => exact h.hostStep_outside x
      | some f => exact h.hostStep_inside x
    obtain ⟨t, closed', cur', ht, h', hframes', hclosed'⟩ := ih h₁
    refine ⟨t, closed', cur', (runSteps_cons hu).trans ht, h', (hframes₁ xs).trans hframes',
      fun hreset hc => ?_⟩
    obtain ⟨hx, hxs⟩ := List.ne_and_not_mem_of_not_mem_cons hreset
    exact hclosed' hxs (hclosed₁ hx.symm hc)

end

/-! ### The statements -/

/-- Nothing has been reported in a state outside a frame. -/
theorem FramesSoFar.start {s : State} (hs : s.held = none) (hphase : s.phase ≠ .busy) :
    FramesSoFar s.pixels [] none s where
  held := hs
  pixels := by simp
  sound := by simp
  outside _ := hphase
  inside := by simp

/-- Settles O54: the frames of the run are those that have been closed and the one that is open. -/
theorem runEmitsItsFrames : Obligations.RunEmitsItsFrames := by
  intro steps s hs hphase
  obtain ⟨t, closed, cur, ht, h, hframes, -⟩ := (FramesSoFar.start hs hphase).runSteps steps
  have hall : framesOf steps s = closed ++ cur.toList := hframes
  refine ⟨t, ht, h.held, by rw [hall]; exact h.pixels, fun f hf => ?_⟩
  obtain ⟨hbusy, hle⟩ := h.sound f (hall ▸ hf)
  refine ⟨hbusy, hle, fun hcut => framePixel_eof_of_short (lt_of_le_of_ne hle ?_)⟩
  exact of_decide_eq_false hcut

theorem State.ranToCompletion_iff {t : State} :
    t.ranToCompletion = true ↔ t.faulted = false ∧ t.busy = false := by
  simp [State.ranToCompletion]

theorem convertedItsFrames_iff {steps : List HostStep} {t : State} (h : run steps = .next t) :
    convertedItsFrames steps = true ↔
      (t.faulted = false ∧ t.busy = false) ∧
        (∀ f ∈ framesOf steps State.reset, f.isWhole = true) ∧
        t.pixels = (framesOf steps State.reset).flatMap RunFrame.pixels := by
  simp [convertedItsFrames, h, State.ranToCompletion_iff, and_assoc]

/-- Settles O55: without a reset a frame is closed whole or by the fault that ends the run, so the
run ends without a fault and outside a frame exactly where all are whole. -/
theorem completedRunHasConvertedItsFrames : Obligations.CompletedRunHasConvertedItsFrames := by
  intro steps hreset
  obtain ⟨t, closed, cur, ht, h, hframes, hclosed⟩ :=
    (FramesSoFar.start (s := State.reset) rfl (by decide)).runSteps steps
  have hall : framesOf steps State.reset = closed ++ cur.toList := hframes
  have hc : ClosedByFaultOnly closed t := hclosed hreset (.of_not_faulted rfl (by simp))
  have hrun : run steps = .next t := ht
  refine ⟨t, hrun, by rw [runResult, hrun], ?converted, fun hbusy => ?unfinished⟩
  case converted =>
    rw [convertedItsFrames_iff hrun, hall]
    refine and_iff_left_of_imp fun ⟨hsound, hidle⟩ => ⟨?_, h.pixels⟩
    cases cur with
    | none => simpa using hc.whole hsound
    | some f =>
      obtain ⟨-, hb⟩ := t.phase_busy_iff.mp (h.inside f rfl).1
      simp [hidle] at hb
  case unfinished =>
    rw [hall]
    cases cur with
    | some f => exact ⟨f, List.getLast?_concat, (h.inside f rfl).2.inside⟩
    | none =>
      have hfaulted : t.faulted = true := by
        by_contra hsound
        exact h.outside rfl (t.phase_busy_iff.mpr ⟨by simpa using hsound, hbusy⟩)
      simpa using hc.cut hfaulted hbusy

end Sys2Proof.Machine
end
